-- ==== Sys2Proof/Word.lean ====
section
/-! DEFINITION. The widths of the block's words (00_scope.md R10, R11; 30_encoding.md R70, R80, R89). All are unsigned. -/

namespace Sys2Proof

/-- A data byte of a frame, and a byte operand of a command (R50, R74). -/
abbrev Byte := BitVec 8

/-- A counter, an error counter, a status code or a bit rate: `CNT_W` = `ERR_W` = `ST_W` = 32 (R10). -/
abbrev Word32 := BitVec 32

/-- A CAN identifier as a frame carries it, wide enough for the extended form (R13). -/
abbrev CanId := BitVec 29

/-- The arbitration identifier: major priority, minor priority, node identifier (R78, R100). -/
abbrev Header := BitVec 11

/-- A host command word `CMD` (R70). -/
abbrev CmdWord := BitVec 128

/-- The payload `W` of a response, and a frame in the 128-bit layout (R72, R80). -/
abbrev Payload := BitVec 128

/-- A host response word `RSP` (R80). -/
abbrev RspWord := BitVec 136

/-- A frame on a bus-agent port: bits `[127:29]` of the 128-bit layout (R72, R89). -/
abbrev BusWord := BitVec 99

end Sys2Proof
end

