-- ==== Sys2Proof/Syntax.lean ====
section
/-! DEFINITION. The ten host commands (00_scope.md R3, 30_encoding.md R79) with the operands each one reads (R73). -/

namespace Sys2Proof

/-- An explicit priority pair, the operands `a` and `b` with `px = 1`. They are bytes, wider than the legal range 0..3, so that an
illegal one can be presented and rejected (R74). -/
structure Prio where
  major : Byte
  minor : Byte
deriving DecidableEq, Repr

/-- A host command. A priority operand is `none` when `px = 0`: `a` and `b` are then not read (R73, R75). -/
inductive Instr where
  /-- ENCODE, opcode 0, format C (R102). -/
  | encode (prio : Option Prio) (node : Byte)
  /-- DECODE, opcode 1, format D (R103). -/
  | decode (id : CanId)
  /-- BEGIN, opcode 2, format B (R124). -/
  | begin (pollMode : Bool)
  /-- AVAILABLE, opcode 3, format N (R127). -/
  | available
  /-- RECEIVE, opcode 4, format N (R129). -/
  | receive
  /-- SEND, opcode 5, format S (R131): `id` carries the sender's node identifier (R76), `data` the eight byte lanes (R77). -/
  | send (prio : Option Prio) (rtr ext : Bool) (len : BitVec 4) (id : CanId) (data : BitVec 64)
  /-- RESET, opcode 6, format N (R134). -/
  | reset
  /-- SETNUMBUFFERS, opcode 7, format K (R136). -/
  | setNumBuffers (rx tx : Byte)
  /-- SETPORT, opcode 8, format P (R138). -/
  | setPort (n : Byte)
  /-- STATUS, opcode 9, format N (R140). -/
  | status
deriving DecidableEq, Repr

end Sys2Proof
end

