-- ==== Sys2Proof/WellFormed.lean ====
section
/-! DEFINITION. Which terms of `Instr` are commands in their canonical form: two words that agree in the fields a command reads are
the same command (30_encoding.md R84), so the fields it ignores are 0 (R87). Priorities a command ignores are absent from the
syntax; the one field left to check is the data lanes at or beyond `len` (R73, R77). -/

namespace Sys2Proof

/-- The canonical form of a command: the data lanes SEND ignores are 0; with `len > 8` no data is taken, so all are. -/
def Instr.wf : Instr → Bool
  | .encode _ _ => true
  | .decode _ => true
  | .begin _ => true
  | .available => true
  | .receive => true
  | .send _ _ _ len _ data => if len.toNat ≤ 8 then data >>> (8 * len.toNat) == 0#64 else data == 0#64
  | .reset => true
  | .setNumBuffers _ _ => true
  | .setPort _ => true
  | .status => true

end Sys2Proof
end

