-- ==== Sys2Proof/Decode.lean ====
section
/-! DEFINITION. The command word: its fields (30_encoding.md R71), the decoder (R79, R83) and the encoder. The decoder looks at a
field only if the command reads it (R73, R84). -/

namespace Sys2Proof

/-- `CMD[3:0]`, the opcode. -/
def cmdOp (w : CmdWord) : BitVec 4 := w.extractLsb' 0 4

/-- `CMD[11:4]`, the first byte operand. -/
def cmdA (w : CmdWord) : Byte := w.extractLsb' 4 8

/-- `CMD[19:12]`, the second byte operand. -/
def cmdB (w : CmdWord) : Byte := w.extractLsb' 12 8

/-- `CMD[27:20]`, the third byte operand. -/
def cmdC (w : CmdWord) : Byte := w.extractLsb' 20 8

/-- `CMD[28]`, the explicit-priority bit. -/
def cmdPx (w : CmdWord) : Bool := w.getLsbD 28

/-- `CMD[29]`. -/
def cmdRtr (w : CmdWord) : Bool := w.getLsbD 29

/-- `CMD[30]`. -/
def cmdExt (w : CmdWord) : Bool := w.getLsbD 30

/-- `CMD[34:31]`. -/
def cmdLen (w : CmdWord) : BitVec 4 := w.extractLsb' 31 4

/-- `CMD[63:35]`. -/
def cmdId (w : CmdWord) : CanId := w.extractLsb' 35 29

/-- `CMD[127:64]`: data byte i in bits `[71+8i : 64+8i]` (R51). -/
def cmdData (w : CmdWord) : BitVec 64 := w.extractLsb' 64 64

/-- The priority operand of a word: `a` and `b` when `px = 1`, absent when `px = 0` (R73, R75). -/
def cmdPrio (w : CmdWord) : Option Prio := if cmdPx w then some ⟨cmdA w, cmdB w⟩ else none

/-- The data lanes SEND reads: the first `len` of them, and none when `len > 8` (R77). -/
def keepLanes (len : BitVec 4) (data : BitVec 64) : BitVec 64 :=
  if len.toNat ≤ 8 then data &&& (BitVec.allOnes 64 >>> (64 - 8 * len.toNat)) else 0

/-- What a command word stands for. -/
inductive Decoded where
  /-- One of the ten commands. -/
  | instr (i : Instr)
  /-- A reserved opcode, 0xA to 0xF, by its number (R83). -/
  | reservedOpcode (op : BitVec 4)
deriving DecidableEq, Repr

/-- The decoder, total on the 2^128 words: `CMD[3:0]` alone selects the command (R79). -/
def decode (w : CmdWord) : Decoded :=
  match (cmdOp w).toNat with
  | 0 => .instr (.encode (cmdPrio w) (cmdC w))
  | 1 => .instr (.decode (cmdId w))
  | 2 => .instr (.begin (w.getLsbD 4))
  | 3 => .instr .available
  | 4 => .instr .receive
  | 5 => .instr (.send (cmdPrio w) (cmdRtr w) (cmdExt w) (cmdLen w) (cmdId w) (keepLanes (cmdLen w) (cmdData w)))
  | 6 => .instr .reset
  | 7 => .instr (.setNumBuffers (cmdA w) (cmdB w))
  | 8 => .instr (.setPort (cmdA w))
  | 9 => .instr .status
  | _ => .reservedOpcode (cmdOp w)

/-- The ten fields of a command word (R71); a field left out is 0 (R87). Frames and the codec's results stand at the same positions
in every other 128-bit word (R72, R82). -/
structure CmdFields where
  op : BitVec 4 := 0
  a : Byte := 0
  b : Byte := 0
  c : Byte := 0
  px : Bool := false
  rtr : Bool := false
  ext : Bool := false
  len : BitVec 4 := 0
  id : CanId := 0
  data : BitVec 64 := 0
deriving DecidableEq, Repr

/-- The word with these fields, `data` in the most significant bits and `op` in the least (R71). -/
def packCmd (f : CmdFields) : CmdWord :=
  f.data ++ f.id ++ f.len ++ BitVec.ofBool f.ext ++ BitVec.ofBool f.rtr ++ BitVec.ofBool f.px ++ f.c ++ f.b ++ f.a ++ f.op

/-- The opcode of a command (R79). -/
def opcode : Instr → BitVec 4
  | .encode _ _ => 0
  | .decode _ => 1
  | .begin _ => 2
  | .available => 3
  | .receive => 4
  | .send _ _ _ _ _ _ => 5
  | .reset => 6
  | .setNumBuffers _ _ => 7
  | .setPort _ => 8
  | .status => 9

/-- The operand `a` of a priority, 0 where there is none. -/
def prioA (p : Option Prio) : Byte := (p.map Prio.major).getD 0

/-- The operand `b` of a priority, 0 where there is none. -/
def prioB (p : Option Prio) : Byte := (p.map Prio.minor).getD 0

/-- The fields of a command's word (R71, R73). -/
def fieldsOf : Instr → CmdFields
  | .encode prio node => { op := 0, a := prioA prio, b := prioB prio, c := node, px := prio.isSome }
  | .decode id => { op := 1, id := id }
  | .begin pollMode => { op := 2, a := (BitVec.ofBool pollMode).setWidth 8 }
  | .available => { op := 3 }
  | .receive => { op := 4 }
  | .send prio rtr ext len id data =>
    { op := 5, a := prioA prio, b := prioB prio, px := prio.isSome, rtr := rtr, ext := ext, len := len, id := id, data := data }
  | .reset => { op := 6 }
  | .setNumBuffers rx tx => { op := 7, a := rx, b := tx }
  | .setPort n => { op := 8, a := n }
  | .status => { op := 9 }

/-- The encoder: the command word of a command. -/
def encode (i : Instr) : CmdWord := packCmd (fieldsOf i)

/-- The command word whose lowest `nbits` bits are those of `w` and whose other bits are 0. -/
def commandWord (nbits w : Nat) : CmdWord := BitVec.ofNat 128 (w % 2 ^ nbits)

/-- The command the decoder reads from a word given as the opcode table numbers its bits; a command is one 128-bit word whose bit 0
is the table's bit 0 (R70, R85). -/
def decodeTableWord (nbits w : Nat) : Option Instr :=
  match decode (commandWord nbits w) with
  | .instr i => some i
  | .reservedOpcode _ => none

end Sys2Proof
end

