-- ==== Sys2Proof/Config.lean ====
section
/-! DEFINITION. The implementation parameters of 00_scope.md R10 at the values this hardware takes. -/

namespace Sys2Proof.Config

/-- `NPORTS`: how many ControllerAdapter instances there are; valid ordinals are 1..NPORTS (R10, D11). -/
abbrev nports : Nat := 3

/-- `FALLBACK_PORT`, the port of ordinal 1 (R10). Index k stands for ordinal k + 1. -/
def fallbackPort : Fin nports := ⟨0, by decide⟩

/-- `RX_DEFAULT` (R10). -/
def rxDefault : Byte := 32

/-- `TX_DEFAULT` (R10). -/
def txDefault : Byte := 16

/-- `BITRATE`, bits per second, not configurable (R10, R125). -/
def bitrate : Word32 := 125000

/-- `DEF_PMAJ` (R10, R107). -/
def defaultMajor : Byte := 2

/-- `DEF_PMIN` (R10, R107). -/
def defaultMinor : Byte := 3

/-- `LEN_MAX`, the largest legal frame length (R10). -/
abbrev lenMax : Nat := 8

/-- The largest legal priority, major or minor (R74, R102). -/
abbrev priorityMax : Nat := 3

/-- The largest legal node identifier (R74, R102). -/
abbrev nodeMax : Nat := 127

/-- The largest identifier DECODE splits (R103). -/
abbrev headerMax : Nat := 2047

end Sys2Proof.Config
end

