-- ==== Sys2Proof/Machine/State.lean ====
section
/-! DEFINITION. The state of the block (10_state.md), what an agent's step is (20_memory.md R58) and what the block shows outside
(70_reset_and_hazards.md R243). Plain data throughout. -/

namespace Sys2Proof.Machine

/-- A port: one of NPORTS ControllerAdapter instances (R14). Index k is the port of ordinal k + 1, so no illegal ordinal can be
held (R25; notes/assumptions/11.md). -/
abbrev Port := Fin Config.nports

/-- The mode register (R24): UNBOUND 0, IDLE 1, ACTIVE 2; the value 3 is never produced. -/
inductive Mode where
  | unbound
  | idle
  | active
deriving DecidableEq, Repr

/-- A frame (R13). `len` is a 4-bit field, so a length above 8 can be written down; a well-formed frame has none (`Frame.wf`). -/
structure Frame where
  id : CanId
  len : BitVec 4
  data : List Byte
  rtr : Bool
  ext : Bool
deriving DecidableEq, Repr

/-- The state of the reference adapter of one port (R32 to R36). -/
structure Adapter where
  /-- R32. -/
  started : Bool
  /-- The bit rate of the last successful begin (R33). -/
  bitrate : Word32
  /-- The receive capacity of the last successful begin (R34). -/
  rxdepth : Byte
  /-- The transmit capacity of the last successful begin (R34). -/
  txdepth : Byte
  /-- The receive FIFO, oldest first (R35). -/
  rxq : List Frame
  /-- The transmit FIFO, oldest first (R36). -/
  txq : List Frame
deriving DecidableEq, Repr

/-- The inputs the environment supplies at a step, under no law (R23): what each adapter's begin would answer, and its two error
counters. Not state of the block. -/
structure Env where
  /-- `env.status[p]`. -/
  status : Vector Word32 Config.nports
  /-- `env.rec[p]`. -/
  rxErr : Vector Word32 Config.nports
  /-- `env.tec[p]`. -/
  txErr : Vector Word32 Config.nports
deriving DecidableEq, Repr

/-- A step an agent may take (R58, R217). -/
inductive AgentStep where
  /-- The host presents a command word (R70). -/
  | command (w : CmdWord)
  /-- BUS_RX(p, f): a frame arrives from the bus (R181). -/
  | busRx (p : Port) (f : Frame)
  /-- BUS_TX(p): the bus takes the oldest frame of the transmit FIFO (R183). -/
  | busTx (p : Port)
  /-- Hardware reset (R230). -/
  | hardwareReset
deriving DecidableEq, Repr

/-- An agent's step to come, with the environment's inputs at that step. -/
structure Presented where
  env : Env
  agent : AgentStep
deriving DecidableEq, Repr

/-- Response codes (R81). -/
inductive Code where
  | ok
  | initError
  | portWarning
  | sendRejected
  | malformedLength
  | invalidPriority
  | invalidNodeId
  | invalidId
  | notActive
  | illegalCmd
deriving DecidableEq, Repr

/-- The response to a command (R80), before it is packed. -/
structure Response where
  code : Code
  flag : Bool
  diag : Bool
  w : Payload
deriving DecidableEq, Repr

/-- A call of a ControllerAdapter capability, with its arguments and what it answered (R170, R185). -/
inductive Call where
  | begin (bitRate : Word32) (rxCapacity txCapacity : Byte) (status : Word32)
  | available (answer : Bool)
  | receive (f : Frame)
  | trySend (f : Frame) (accepted : Bool)
  | receiveErrorCounter (value : Word32)
  | transmitErrorCounter (value : Word32)
  | endSession
deriving DecidableEq, Repr

/-- What the block shows outside (R185, R243). -/
inductive Obs where
  /-- The response to a command. -/
  | response (r : Response)
  /-- A frame put on the bus of a port by BUS_TX. -/
  | emitted (p : Port) (f : Frame)
  /-- A capability call on a port's adapter. -/
  | call (p : Port) (c : Call)
deriving DecidableEq, Repr

/-- The state: the block's own (R24 to R36), then the model's three fields, which are not the spec's: the environment's inputs at
the step being taken, the agents' steps to come, and what has been shown outside (notes/assumptions/1.md to 4.md). -/
structure State where
  /-- R24. -/
  mode : Mode
  /-- R25. -/
  port : Port
  /-- R26. -/
  rxcap : Byte
  /-- R27. -/
  txcap : Byte
  /-- R28. -/
  poll : Bool
  /-- R29. -/
  sent : Word32
  /-- R30. -/
  received : Word32
  /-- `Adp[p]` for every port (R32 to R36). -/
  adp : Vector Adapter Config.nports
  /-- The environment's inputs at the step being taken (R23). -/
  env : Env
  /-- The agents' steps to come, in the order they take effect (R58). -/
  pending : List Presented
  /-- What the block has shown outside, oldest first (R243). -/
  obs : List Obs
deriving DecidableEq, Repr

/-- Why a run has gone wrong. -/
inductive Fault where
  /-- RECEIVE with no frame pending: undefined, and the spec asks the model to fault (R129, R220, U1). Raised by RECEIVE alone.
  Safe. -/
  | receiveUndefined
  /-- A frame from the bus that is not well formed, which the spec assumes away (R182, D38, U3). Raised by BUS_RX alone. Safe. -/
  | malformedArrival
deriving DecidableEq, Repr

/-- Why a command has no meaning in the model. -/
inductive Refusal where
  /-- The command of this mnemonic has no meaning yet. Raised by a dispatch arm alone; no arm does so. Safe. -/
  | notModelled (mnemonic : String)
deriving DecidableEq, Repr

/-- An adapter after hardware reset (R41, R230): stopped and empty. -/
def Adapter.reset : Adapter := { started := false, bitrate := 0, rxdepth := 0, txdepth := 0, rxq := [], txq := [] }

/-- The environment's inputs all zero: what `State.reset` holds in a place that is not the block's state (DESIGN CHOICE,
notes/assumptions/3.md). -/
def Env.zero : Env :=
  { status := Vector.replicate Config.nports 0, rxErr := Vector.replicate Config.nports 0, txErr := Vector.replicate Config.nports 0 }

/-- The machine right after hardware reset (R41, R230), with no agent's step to come and nothing shown yet. -/
def State.reset : State :=
  { mode := .unbound, port := Config.fallbackPort, rxcap := Config.rxDefault, txcap := Config.txDefault, poll := false, sent := 0,
    received := 0, adp := Vector.replicate Config.nports Adapter.reset, env := Env.zero, pending := [], obs := [] }

end Sys2Proof.Machine
end

