-- ==== Sys2Proof/Machine/Operands.lean ====
section
/-! DEFINITION. The operand forms: the priority pair, node identifiers, the arbitration identifier, data lanes, frames in packed
words, port ordinals (30_encoding.md R72 to R78, 40_codec.md R100, 00_scope.md R13). -/

namespace Sys2Proof.Machine

/-- The priority pair a command works with: the caller's two bytes, or the default (2, 3) (R75, R107). -/
def priorityPair (prio : Option Prio) : Prio := prio.getD ⟨Config.defaultMajor, Config.defaultMinor⟩

/-- Both priorities are in 0..3; they are tested, never masked (R74, R102). -/
def priorityLegal (p : Prio) : Bool := p.major.toNat ≤ Config.priorityMax && p.minor.toNat ≤ Config.priorityMax

/-- Where SEND takes the sender's node identifier from: the supplied frame's `id` (R76, R131 corner (a), U18). -/
def sendNode (id : CanId) : CanId := id

/-- A node identifier is in 0..127 (R74, R76). -/
def nodeLegal (node : Nat) : Bool := node ≤ Config.nodeMax

/-- The arbitration identifier: `(pmaj << 9) | (pmin << 7) | node` (R100, R102). -/
def headerOf (p : Prio) (node : BitVec 7) : Header :=
  (p.major.setWidth 11 <<< 9) ||| (p.minor.setWidth 11 <<< 7) ||| node.setWidth 11

/-- Bits `[10:9]` of an arbitration identifier (R78, R103). -/
def headerMajor (h : Header) : BitVec 2 := h.extractLsb' 9 2

/-- Bits `[8:7]` of an arbitration identifier (R78, R103). -/
def headerMinor (h : Header) : BitVec 2 := h.extractLsb' 7 2

/-- Bits `[6:0]` of an arbitration identifier (R78, R103). -/
def headerNode (h : Header) : BitVec 7 := h.extractLsb' 0 7

/-- The first `n` byte lanes, lane i being bits `[8i+7 : 8i]` (R51, R77). -/
def splitLanes (n : Nat) (data : BitVec 64) : List Byte := (List.range n).map fun i => data.extractLsb' (8 * i) 8

/-- Byte lanes holding these bytes, the first in the least significant lane; the lanes beyond them are 0 (R51, R77). -/
def joinLanes : List Byte → BitVec 64
  | [] => 0
  | b :: bs => (joinLanes bs <<< 8) ||| b.setWidth 64

/-- `wf(f)`: at most 8 bytes, exactly `len` of them, and a standard identifier fits in 11 bits; an extended one fits in its 29 by
its width (R13). -/
def Frame.wf (f : Frame) : Bool :=
  f.len.toNat ≤ Config.lenMax && f.data.length == f.len.toNat && (f.ext || f.id.toNat < 2 ^ 11)

/-- A frame in the 128-bit layout: data, id, len, ext, rtr, then 29 zero bits; lanes at or beyond `len` are 0 (R72, R77). -/
def packFrame (f : Frame) : Payload :=
  packCmd { rtr := f.rtr, ext := f.ext, len := f.len, id := f.id, data := joinLanes (f.data.take f.len.toNat) }

/-- The frame a word in the 128-bit layout carries: its data is the first `len` lanes, and none with `len > 8` (R72, R77). -/
def unpackFrame (w : Payload) : Frame :=
  { id := cmdId w, len := cmdLen w, rtr := cmdRtr w, ext := cmdExt w
    data := if (cmdLen w).toNat ≤ Config.lenMax then splitLanes (cmdLen w).toNat (cmdData w) else [] }

/-- A frame on a bus-agent port: bits `[127:29]` of the 128-bit layout (R72, R89, C11). -/
def packBus (f : Frame) : BusWord := (packFrame f).extractLsb' 29 99

/-- The frame offered on a bus-agent port (R72, R89, C11). -/
def unpackBus (w : BusWord) : Frame := unpackFrame (w ++ 0#29)

/-- The ordinal of a port, 1..NPORTS (R25). -/
def portOrdinal (p : Port) : Byte := BitVec.ofNat 8 (p.val + 1)

/-- The port of an ordinal, if it is one of 1..NPORTS (R74, R138). -/
def portOf (n : Byte) : Option Port :=
  if h : 1 ≤ n.toNat ∧ n.toNat ≤ Config.nports then some ⟨n.toNat - 1, by omega⟩ else none

/-- The 2-bit value of the mode register (R24). -/
def modeBits : Mode → BitVec 2
  | .unbound => 0
  | .idle => 1
  | .active => 2

end Sys2Proof.Machine
end

