-- ==== Sys2Proof/Machine/Flags.lean ====
section
/-! DEFINITION. What a command answers: response codes, the `flag` and `diag` bits, the payloads and the response word
(30_encoding.md R80 to R82), and the counters' increment (42_statistics.md R162). The block stores no flag (R22). -/

namespace Sys2Proof.Machine

/-- The 4-bit number of a response code (R81). -/
def codeBits : Code → BitVec 4
  | .ok => 0
  | .initError => 1
  | .portWarning => 2
  | .sendRejected => 3
  | .malformedLength => 4
  | .invalidPriority => 5
  | .invalidNodeId => 6
  | .invalidId => 7
  | .notActive => 8
  | .illegalCmd => 9

/-- The response word: `W`, two reserved zero bits, `diag`, `flag`, `code` (R80). -/
def rspWord (r : Response) : RspWord := r.w ++ 0#2 ++ BitVec.ofBool r.diag ++ BitVec.ofBool r.flag ++ codeBits r.code

/-- OK with this boolean result and payload (R82). -/
def okResponse (flag : Bool) (w : Payload) : Response := { code := .ok, flag := flag, diag := false, w := w }

/-- The response of `reject CODE`: `flag = 0`, `diag = 0`, `W = 0` (R12, R210). -/
def rejectResponse (code : Code) : Response := { code := code, flag := false, diag := false, w := 0 }

/-- INIT_ERROR carries the adapter's status code in `W[31:0]` (R82, R201). -/
def initErrorResponse (st : Word32) : Response := { code := .initError, flag := false, diag := false, w := 0#96 ++ st }

/-- PORT_WARNING: the command took effect with port 1, so `flag = 1`, and `diag = 1` is the diagnostic (R82, R138, R202). -/
def portWarningResponse : Response := { code := .portWarning, flag := true, diag := true, w := 0 }

/-- ENCODE's payload: `W[63:35] = zext_29(hdr)`, the `id` field position (R82, R102). -/
def encodePayload (h : Header) : Payload := packCmd { id := h.setWidth 29 }

/-- DECODE's payload: `W[11:4]`, `W[19:12]`, `W[27:20]`, the field positions of `a`, `b`, `c` (R82, R103). -/
def decodePayload (h : Header) : Payload :=
  packCmd { a := (headerMajor h).setWidth 8, b := (headerMinor h).setWidth 8, c := (headerNode h).setWidth 8 }

/-- The payload of BEGIN and RESET on success: status code 0 in `W[31:0]` (R82). -/
def beginPayload : Payload := 0

/-- STATUS's payload: `W[31:0] = sent`, `W[63:32] = received`, `W[95:64] = rxErrors`, `W[127:96] = txErrors` (R82, R140). -/
def statusPayload (sent received rxErrors txErrors : Word32) : Payload := txErrors ++ rxErrors ++ received ++ sent

/-- `inc(c)`: the counters saturate (R162). -/
def inc (c : Word32) : Word32 := if c = BitVec.allOnes 32 then c else c + 1

end Sys2Proof.Machine
end

