-- ==== Sys2Proof/Machine/Ops.lean ====
section
/-! DEFINITION. The shared operations: the FIFOs (00_scope.md R12), the reference adapter (43_adapter.md R178 to R180, R184), the
capability calls the core makes, rejecting a command (60_exceptions.md R210), beginning a session, and hardware reset
(70_reset_and_hazards.md R230). -/

namespace Sys2Proof.Machine

/-- `FifoPush(q, depth, f)`: the queue after it, and whether it took the frame (R12). -/
def fifoPush (q : List Frame) (depth : Byte) (f : Frame) : List Frame × Bool :=
  if q.length < depth.toNat then (q ++ [f], true) else (q, false)

/-- `FifoPop(q)`: the head and the rest, if there is one (R12). -/
def fifoPop : List Frame → Option (Frame × List Frame)
  | [] => none
  | f :: q => some (f, q)

/-- The adapter after `begin(br, rx, tx)` when the environment's status code is `st`: both FIFOs emptied, started with these
arguments on 0, stopped otherwise (R178). -/
def adapterBegin (st br : Word32) (rx tx : Byte) (a : Adapter) : Adapter :=
  if st = 0 then { started := true, bitrate := br, rxdepth := rx, txdepth := tx, rxq := [], txq := [] }
  else { a with started := false, rxq := [], txq := [] }

/-- The adapter after `end()`: stopped and empty (R179). -/
def adapterEnd (a : Adapter) : Adapter := { a with started := false, rxq := [], txq := [] }

/-- `available()` (R180). -/
def adapterAvailable (a : Adapter) : Bool := a.started && !a.rxq.isEmpty

/-- `receive()`, valid only when `available()` is true: the oldest frame and the adapter after it (R173, R180). -/
def adapterReceive (a : Adapter) : Option (Frame × Adapter) :=
  if adapterAvailable a then (fifoPop a.rxq).map fun (f, q) => (f, { a with rxq := q }) else none

/-- `trySend(g)`: the adapter after it, and whether it accepted the frame (R174, R180). -/
def adapterTrySend (g : Frame) (a : Adapter) : Adapter × Bool :=
  if a.started then
    let (q, accepted) := fifoPush a.txq a.txdepth g
    ({ a with txq := q }, accepted)
  else (a, false)

/-- `Adp[p]`. -/
def adapterAt (s : State) (p : Port) : Adapter := s.adp[p]

/-- The state with `Adp[p]` replaced. -/
def setAdapter (p : Port) (a : Adapter) (s : State) : State := { s with adp := s.adp.set p a }

/-- The state with a capability call shown (R185). -/
def showCall (p : Port) (c : Call) (s : State) : State := { s with obs := s.obs ++ [.call p c] }

/-- `respond`: the command ends with this response (R12). -/
def respond (r : Response) (s : State) : State := { s with obs := s.obs ++ [.response r] }

/-- `reject CODE`: the one form an error takes. The response carries the code, and no state is changed; nothing is saved, no control
is transferred and there is nothing to return from (R12, R210, R211). -/
def reject (code : Code) (s : State) : State := respond (rejectResponse code) s

/-- `Adp[p].end()` (R179). -/
def callEnd (p : Port) (s : State) : State := showCall p .endSession (setAdapter p (adapterEnd (adapterAt s p)) s)

/-- `Adp[p].begin(125000, rxcap, txcap)`, the one begin call the core makes, whose status code is the environment's (R125, R171,
R178). -/
def callBegin (p : Port) (s : State) : State :=
  showCall p (.begin Config.bitrate s.rxcap s.txcap s.env.status[p])
    (setAdapter p (adapterBegin s.env.status[p] Config.bitrate s.rxcap s.txcap (adapterAt s p)) s)

/-- The mode after a failed begin: ACTIVE falls to IDLE, the others stay (R120, R124). -/
def modeAfterFailure : Mode → Mode
  | .unbound => .unbound
  | .idle => .idle
  | .active => .idle

/-- The body of BEGIN with `pollMode`, which RESET also runs after its `end`: begin the bound adapter; on status 0 the session is
ACTIVE with both counters 0, otherwise the code is reported and the counters, `poll` and the configuration stay (R124, R134). -/
def beginSession (pollMode : Bool) (s : State) : State :=
  if s.env.status[s.port] = 0 then
    respond (okResponse true beginPayload)
      { callBegin s.port s with mode := .active, sent := 0, received := 0, poll := pollMode }
  else
    respond (initErrorResponse s.env.status[s.port]) { callBegin s.port s with mode := modeAfterFailure s.mode }

/-- What the block answers to a reserved opcode: ILLEGAL_CMD, no state change (R83, R208). -/
def illegalCommand (s : State) : State := reject .illegalCmd s

/-- Hardware reset: every piece of the block's state at its reset value. The environment's inputs are not reset, the agents' steps
to come remain to come, and no response is produced (R230, R231). -/
def hardwareReset (s : State) : State := { State.reset with env := s.env, pending := s.pending, obs := s.obs }

end Sys2Proof.Machine
end

