-- ==== Sys2Proof/Machine/BusAgent.lean ====
section
/-! DEFINITION. The bus agent's steps (43_adapter.md R181, R183). A step whose precondition fails is not enabled: it is not taken
and changes nothing (notes/assumptions/5.md). -/

namespace Sys2Proof.Machine

/-- BUS_RX(p, f) (R181): the frame is queued, or lost without a trace when the receive FIFO is full. A frame that is not well formed
is assumed away by the spec (R182); here the run has gone wrong (notes/assumptions/6.md). -/
def busRx (p : Port) (f : Frame) (s : State) : Host.Outcome State Fault Refusal :=
  if (adapterAt s p).started then
    if f.wf then
      .next (setAdapter p { adapterAt s p with rxq := (fifoPush (adapterAt s p).rxq (adapterAt s p).rxdepth f).1 } s)
    else .fault .malformedArrival
  else .next s

/-- BUS_TX(p) (R183): the oldest frame of the transmit FIFO goes out on the bus of port p. -/
def busTx (p : Port) (s : State) : Host.Outcome State Fault Refusal :=
  if (adapterAt s p).started then
    match fifoPop (adapterAt s p).txq with
    | some (g, q) =>
      let s' := setAdapter p { adapterAt s p with txq := q } s
      .next { s' with obs := s'.obs ++ [.emitted p g] }
    | none => .next s
  else .next s

end Sys2Proof.Machine
end

