-- ==== Sys2Proof/Machine/Codec.lean ====
section
/-! DEFINITION. The FrameCodec family: ENCODE and DECODE (40_codec.md). Both read no state and write none. -/

namespace Sys2Proof.Machine

/-- The first error the header's operands have: the priority, then the node identifier (R102, R209). -/
def headerError (p : Prio) (node : Nat) : Option Code :=
  if !priorityLegal p then some .invalidPriority else if !nodeLegal node then some .invalidNodeId else none

/-- ENCODE (R102). -/
def execEncode (prio : Option Prio) (node : Byte) (s : State) : Host.Outcome State Fault Refusal :=
  match headerError (priorityPair prio) node.toNat with
  | some code => .next (reject code s)
  | none => .next (respond (okResponse true (encodePayload (headerOf (priorityPair prio) (node.extractLsb' 0 7)))) s)

/-- DECODE (R103). -/
def execDecode (id : CanId) (s : State) : Host.Outcome State Fault Refusal :=
  if id.toNat > Config.headerMax then .next (reject .invalidId s)
  else .next (respond (okResponse true (decodePayload (id.extractLsb' 0 11))) s)

end Sys2Proof.Machine
end

