-- ==== Sys2Proof/Machine/Statistics.lean ====
section
/-! DEFINITION. The STATUS snapshot and its rendering as a line of text (42_statistics.md R160, R166). The text is host-side
rendering of one STATUS response, no port of the block (00_scope.md R9). -/

namespace Sys2Proof.Machine

/-- The snapshot record of `statusSnapshot()` (R82, R140). -/
structure Snapshot where
  sent : Word32
  received : Word32
  rxErrors : Word32
  txErrors : Word32
deriving DecidableEq, Repr

/-- What STATUS reports: the two counters, and the bound adapter's two error counters, which are the environment's (R140, R160,
R184). -/
def snapshot (s : State) : Snapshot :=
  { sent := s.sent, received := s.received, rxErrors := s.env.rxErr[s.port], txErrors := s.env.txErr[s.port] }

/-- The snapshot a STATUS payload carries (R82). -/
def snapshotOf (w : Payload) : Snapshot :=
  { sent := w.extractLsb' 0 32, received := w.extractLsb' 32 32, rxErrors := w.extractLsb' 64 32, txErrors := w.extractLsb' 96 32 }

/-- A number in base 10: no sign, no leading zeros, no grouping, no padding (R166). -/
def decimal (n : Word32) : String := toString n.toNat

/-- The status text, with no line terminator; `received` comes before `sent` (R166). -/
def statusText (n : Snapshot) : String :=
  "CBUS status: messages received = " ++ decimal n.received ++ ", sent = " ++ decimal n.sent ++ ", receive errors = "
    ++ decimal n.rxErrors ++ ", transmit errors = " ++ decimal n.txErrors

end Sys2Proof.Machine
end

