-- ==== Sys2Proof/Machine/Transport.lean ====
section
/-! DEFINITION. The BufferedTransportPort family: BEGIN, AVAILABLE, RECEIVE, SEND, RESET, SETNUMBUFFERS, SETPORT, STATUS
(41_transport.md). Every command touches `Adp[port]` alone (R121) and answers in the same step (R122). -/

namespace Sys2Proof.Machine

/-- BEGIN (R124): one begin call, no retry; on success `poll` takes the operand. -/
def execBegin (pollMode : Bool) (s : State) : Host.Outcome State Fault Refusal := .next (beginSession pollMode s)

/-- AVAILABLE (R127): outside ACTIVE the adapter is not asked and the answer is false. -/
def execAvailable (s : State) : Host.Outcome State Fault Refusal :=
  match s.mode with
  | .active =>
    .next (respond (okResponse (adapterAvailable (adapterAt s s.port)) 0)
      (showCall s.port (.available (adapterAvailable (adapterAt s s.port))) s))
  | .idle => .next (respond (okResponse false 0) s)
  | .unbound => .next (respond (okResponse false 0) s)

/-- The frame RECEIVE would return and the adapter after it; none where the behaviour is undefined (R129, R220). -/
def pendingFrame (s : State) : Option (Frame × Adapter) :=
  match s.mode with
  | .active => adapterReceive (adapterAt s s.port)
  | .idle => none
  | .unbound => none

/-- RECEIVE (R129): pop the oldest received frame and count it; with none pending the run has gone wrong (R220, U1). -/
def execReceive (s : State) : Host.Outcome State Fault Refusal :=
  match pendingFrame s with
  | some (f, a) =>
    .next (respond (okResponse true (packFrame f))
      { showCall s.port (.receive f) (setAdapter s.port a s) with received := inc s.received })
  | none => .fault .receiveUndefined

/-- The first error SEND's operands and the mode have: length, priority, node identifier, mode (R131, R209). -/
def sendError (prio : Option Prio) (len : BitVec 4) (id : CanId) (mode : Mode) : Option Code :=
  if len.toNat > Config.lenMax then some .malformedLength
  else match headerError (priorityPair prio) (sendNode id).toNat with
    | some code => some code
    | none => if mode = .active then none else some .notActive

/-- The frame SEND hands to the adapter: the supplied identifier is replaced by the header, `rtr`, `ext` and the first `len` bytes
pass through (R131, R132). -/
def outgoingFrame (prio : Option Prio) (rtr ext : Bool) (len : BitVec 4) (id : CanId) (data : BitVec 64) : Frame :=
  { id := (headerOf (priorityPair prio) ((sendNode id).extractLsb' 0 7)).setWidth 29, len := len
    data := splitLanes len.toNat data, rtr := rtr, ext := ext }

/-- SEND (R131): every check before the adapter is asked; the frame is counted if and only if the adapter accepts it. -/
def execSend (prio : Option Prio) (rtr ext : Bool) (len : BitVec 4) (id : CanId) (data : BitVec 64) (s : State) :
    Host.Outcome State Fault Refusal :=
  match sendError prio len id s.mode with
  | some code => .next (reject code s)
  | none =>
    let g := outgoingFrame prio rtr ext len id data
    let (a, accepted) := adapterTrySend g (adapterAt s s.port)
    let asked := showCall s.port (.trySend g accepted) (setAdapter s.port a s)
    if accepted then .next (respond (okResponse true 0) { asked with sent := inc s.sent })
    else .next (reject .sendRejected asked)

/-- RESET (R134): end the session, then begin again with the stored `poll` and the current capacities. -/
def execReset (s : State) : Host.Outcome State Fault Refusal := .next (beginSession s.poll (callEnd s.port s))

/-- SETNUMBUFFERS (R136): the running session keeps its depths. -/
def execSetNumBuffers (rx tx : Byte) (s : State) : Host.Outcome State Fault Refusal :=
  .next (respond (okResponse true 0) { s with rxcap := rx, txcap := tx })

/-- The state in which SETPORT rebinds: in ACTIVE the old adapter has been ended (R138). -/
def releasePort (s : State) : State :=
  match s.mode with
  | .active => callEnd s.port s
  | .idle => s
  | .unbound => s

/-- SETPORT (R138): bind the port of this ordinal, or fall back to port 1 with a warning; the new adapter is not started. -/
def execSetPort (n : Byte) (s : State) : Host.Outcome State Fault Refusal :=
  match portOf n with
  | some p => .next (respond (okResponse true 0) { releasePort s with port := p, mode := .idle })
  | none => .next (respond portWarningResponse { releasePort s with port := Config.fallbackPort, mode := .idle })

/-- STATUS (R140): the snapshot, in one atomic step; each error counter is asked of the bound adapter once (R175). -/
def execStatus (s : State) : Host.Outcome State Fault Refusal :=
  let n := snapshot s
  .next (respond (okResponse true (statusPayload n.sent n.received n.rxErrors n.txErrors))
    (showCall s.port (.transmitErrorCounter n.txErrors) (showCall s.port (.receiveErrorCounter n.rxErrors) s)))

end Sys2Proof.Machine
end

