-- ==== Sys2Proof/Machine/Dispatch.lean ====
section
/-! DEFINITION. Which meaning each command has (30_encoding.md R79), in the opcode table's order. -/

namespace Sys2Proof.Machine

def exec (i : Instr) (s : State) : Host.Outcome State Fault Refusal :=
  match i with
  | .encode prio node => Sys2Proof.Machine.execEncode prio node s
  | .decode id => Sys2Proof.Machine.execDecode id s
  | .begin pollMode => Sys2Proof.Machine.execBegin pollMode s
  | .available => Sys2Proof.Machine.execAvailable s
  | .receive => Sys2Proof.Machine.execReceive s
  | .send prio rtr ext len id data => Sys2Proof.Machine.execSend prio rtr ext len id data s
  | .reset => Sys2Proof.Machine.execReset s
  | .setNumBuffers rx tx => Sys2Proof.Machine.execSetNumBuffers rx tx s
  | .setPort n => Sys2Proof.Machine.execSetPort n s
  | .status => Sys2Proof.Machine.execStatus s

end Sys2Proof.Machine
end

