-- ==== Sys2Proof/Machine/Agents.lean ====
section
/-! DEFINITION. The step relation of 20_memory.md R58: one agent's step at a time, each complete before the next. -/

namespace Sys2Proof.Machine

/-- A host command: the word's command runs, and a reserved opcode is answered ILLEGAL_CMD (R83). -/
def runCommand (w : CmdWord) (s : State) : Host.Outcome State Fault Refusal :=
  match decode w with
  | .instr i => exec i s
  | .reservedOpcode _ => .next (illegalCommand s)

/-- One agent's step (R58, R217). -/
def agentStep (a : AgentStep) (s : State) : Host.Outcome State Fault Refusal :=
  match a with
  | .command w => runCommand w s
  | .busRx p f => busRx p f s
  | .busTx p => busTx p s
  | .hardwareReset => .next (hardwareReset s)

/-- The next step of the total order: the agent's step at the head of `pending`, with the environment's inputs it comes with. With
no agent's step to come the block idles: it has no halt and waits for ever (R243; notes/assumptions/1.md). -/
def nextStep (s : State) : Host.Outcome State Fault Refusal :=
  match s.pending with
  | [] => .next s
  | x :: rest => agentStep x.agent { s with env := x.env, pending := rest }

/-- The state in which the host presents this command word next, the environment's inputs being those the state holds. -/
def presentCommand (w : CmdWord) (s : State) : State := { s with pending := ⟨s.env, .command w⟩ :: s.pending }

end Sys2Proof.Machine
end

