-- ==== Sys2Proof/Machine/Step.lean ====
section
/-! DEFINITION. The machine's step, and the place it takes its next command from (20_memory.md R58). -/

namespace Sys2Proof.Machine

/-- One step of the machine (`nextStep`). -/
def step (s : State) : Host.Outcome State Fault Refusal := nextStep s

/-- The state whose next step runs the command word with these bits, numbered as the opcode table numbers them. The block fetches
nothing (R21): commands come from the host, so the word is put at the head of the agents' steps to come
(notes/assumptions/1.md). -/
def State.withFetchWord (s : State) (nbits w : Nat) : State := presentCommand (commandWord nbits w) s

end Sys2Proof.Machine
end

