-- ==== Sys2Proof/Machine/Text.lean ====
section
/-! DEFINITION. The textual form of commands and of the other agents' steps (30_encoding.md R87): mnemonic in upper case, `name=value`
operands separated by commas, numbers in decimal, data as a bracketed list. A line stands for its mnemonic and its named operands;
how characters are cut into them is not modelled (notes/assumptions/13.md). -/

namespace Sys2Proof.Machine

/-- The value of an operand: a number, or a bracketed list of them (R87). -/
inductive TextValue where
  | number (n : Nat)
  | list (ns : List Nat)
deriving DecidableEq, Repr

/-- A line of text: the mnemonic and the operands in the order they are written (R87). -/
structure TextLine where
  mnemonic : String
  operands : List (String × TextValue)
deriving DecidableEq, Repr

/-! Writing -/

/-- These strings with a separator between them. -/
def textJoin (sep : String) : List String → String
  | [] => ""
  | [x] => x
  | x :: y :: rest => x ++ sep ++ textJoin sep (y :: rest)

/-- A value as it is written, numbers in decimal (R87). -/
def textValue : TextValue → String
  | .number n => toString n
  | .list ns => "[" ++ textJoin "," (ns.map toString) ++ "]"

/-- A line as it is written (R87). -/
def renderLine (l : TextLine) : String :=
  match l.operands with
  | [] => l.mnemonic
  | x :: rest => l.mnemonic ++ " " ++ textJoin ", " ((x :: rest).map fun o => o.1 ++ "=" ++ textValue o.2)

/-- The operands `pmaj` and `pmin`, both or neither (R87). -/
def prioOperands : Option Prio → List (String × TextValue)
  | none => []
  | some p => [("pmaj", .number p.major.toNat), ("pmin", .number p.minor.toNat)]

/-- The bytes of a data list (R87). -/
def dataOperand (bytes : List Byte) : String × TextValue := ("data", .list (bytes.map BitVec.toNat))

/-- The data SEND's line shows: the `len` bytes it reads, none with `len > 8` (R73, R77). -/
def sendData (len : BitVec 4) (data : BitVec 64) : List Byte :=
  if len.toNat ≤ Config.lenMax then splitLanes len.toNat data else []

/-- The line of a command, every operand written out (R87). -/
def lineOf : Instr → TextLine
  | .encode prio node => ⟨"ENCODE", prioOperands prio ++ [("node", .number node.toNat)]⟩
  | .decode id => ⟨"DECODE", [("id", .number id.toNat)]⟩
  | .begin pollMode => ⟨"BEGIN", [("poll", .number pollMode.toNat)]⟩
  | .available => ⟨"AVAILABLE", []⟩
  | .receive => ⟨"RECEIVE", []⟩
  | .send prio rtr ext len id data =>
    ⟨"SEND", [("node", .number id.toNat), ("len", .number len.toNat), dataOperand (sendData len data), ("rtr", .number rtr.toNat),
      ("ext", .number ext.toNat)] ++ prioOperands prio⟩
  | .reset => ⟨"RESET", []⟩
  | .setNumBuffers rx tx => ⟨"SETNUMBUFFERS", [("rx", .number rx.toNat), ("tx", .number tx.toNat)]⟩
  | .setPort n => ⟨"SETPORT", [("n", .number n.toNat)]⟩
  | .status => ⟨"STATUS", []⟩

/-- The textual form of a command (R87). -/
def commandText (i : Instr) : String := renderLine (lineOf i)

/-- The line of a frame's arrival: `BUS_RX` (R87). -/
def arrivalLine (p : Port) (f : Frame) : TextLine :=
  ⟨"BUS_RX", [("p", .number (portOrdinal p).toNat), ("id", .number f.id.toNat), ("len", .number f.len.toNat), dataOperand f.data,
    ("rtr", .number f.rtr.toNat), ("ext", .number f.ext.toNat)]⟩

/-- The textual form of an agent's step; a reserved opcode and hardware reset have none (R87). -/
def agentText : AgentStep → Option String
  | .busRx p f => some (renderLine (arrivalLine p f))
  | .busTx p => some (renderLine ⟨"BUS_TX", [("p", .number (portOrdinal p).toNat)]⟩)
  | .command w =>
    match decode w with
    | .instr i => some (commandText i)
    | .reservedOpcode _ => none
  | .hardwareReset => none

/-! Reading -/

/-- The value a line gives an operand, if it names it. -/
def operandOf (l : TextLine) (name : String) : Option TextValue := (l.operands.find? fun o => o.1 = name).map Prod.snd

/-- A numeric operand below a bound; one left out is 0 (R87). -/
def readNumber (l : TextLine) (name : String) (bound : Nat) : Option Nat :=
  match operandOf l name with
  | none => some 0
  | some (.number n) => if n < bound then some n else none
  | some (.list _) => none

/-- A bit written 0 or 1; left out it is 0, the source's default (R10, R87). -/
def readFlag (l : TextLine) (name : String) : Option Bool := (readNumber l name 2).map fun n => n = 1

/-- A byte operand (R87). -/
def readByte (l : TextLine) (name : String) : Option Byte := (readNumber l name 256).map (BitVec.ofNat 8)

/-- The priority operands: both give an explicit pair (`px = 1`), neither gives none (`px = 0`), one alone is no command (R87). -/
def readPrio (l : TextLine) : Option (Option Prio) :=
  match operandOf l "pmaj", operandOf l "pmin" with
  | none, none => some none
  | some _, some _ =>
    match readByte l "pmaj", readByte l "pmin" with
    | some major, some minor => some (some ⟨major, minor⟩)
    | some _, none => none
    | none, some _ => none
    | none, none => none
  | some _, none => none
  | none, some _ => none

/-- The data list, at most eight bytes; left out it is empty (R87). -/
def readData (l : TextLine) : Option (List Byte) :=
  match operandOf l "data" with
  | none => some []
  | some (.list ns) => if ns.length ≤ Config.lenMax ∧ ∀ n ∈ ns, n < 256 then some (ns.map (BitVec.ofNat 8)) else none
  | some (.number _) => none

/-- SEND's line; the lanes it ignores are encoded as 0 (R87). -/
def readSend (l : TextLine) : Option Instr :=
  (readPrio l).bind fun prio => (readFlag l "rtr").bind fun rtr => (readFlag l "ext").bind fun ext =>
    (readNumber l "len" 16).bind fun len => (readNumber l "node" (2 ^ 29)).bind fun node => (readData l).map fun data =>
      .send prio rtr ext (BitVec.ofNat 4 len) (BitVec.ofNat 29 node) (keepLanes (BitVec.ofNat 4 len) (joinLanes data))

/-- The command a line stands for; none if its mnemonic is no command's or an operand is out of its field (R87). -/
def readCommand (l : TextLine) : Option Instr :=
  match l.mnemonic with
  | "ENCODE" => (readPrio l).bind fun prio => (readByte l "node").map fun node => .encode prio node
  | "DECODE" => (readNumber l "id" (2 ^ 29)).map fun id => .decode (BitVec.ofNat 29 id)
  | "BEGIN" => (readFlag l "poll").map fun pollMode => .begin pollMode
  | "AVAILABLE" => some .available
  | "RECEIVE" => some .receive
  | "SEND" => readSend l
  | "RESET" => some .reset
  | "SETNUMBUFFERS" => (readByte l "rx").bind fun rx => (readByte l "tx").map fun tx => .setNumBuffers rx tx
  | "SETPORT" => (readByte l "n").map fun n => .setPort n
  | "STATUS" => some .status
  | _ => none

end Sys2Proof.Machine
end

