-- ==== Sys2Proof/Machine/Signals.lean ====
section
/-! DEFINITION. The signal-level carrier (30_encoding.md R89) and how at most one step is taken in a clock cycle (60_exceptions.md
R213). It is one way to realise the free interleaving of the step, and no rule rests on its priority order. -/

namespace Sys2Proof.Machine

/-- The inputs in one clock cycle (R89). -/
structure CycleIn where
  rst : Bool
  cmdValid : Bool
  cmd : CmdWord
  busrxValid : Vector Bool Config.nports
  busrxFrame : Vector BusWord Config.nports
  bustxReady : Vector Bool Config.nports
  /-- `adp_status`, `adp_rec`, `adp_tec`. -/
  env : Env
deriving DecidableEq, Repr

/-- The outputs in one clock cycle (R89). A word the spec gives no value in the cycle is `none` (notes/assumptions/7.md, 8.md). -/
structure CycleOut where
  rspValid : Bool
  rsp : Option RspWord
  diagPulse : Bool
  avail : Bool
  busrxReady : Vector Bool Config.nports
  bustxValid : Vector Bool Config.nports
  bustxFrame : Vector (Option BusWord) Config.nports
  adpBitrate : Vector Word32 Config.nports
deriving DecidableEq, Repr

/-- The level output `avail`: ACTIVE and the bound adapter's receive FIFO is not empty (R89). -/
def availLevel (s : State) : Bool := s.mode = .active && !(adapterAt s s.port).rxq.isEmpty

/-- `bustx_valid[p]`: the adapter is started and its transmit FIFO is not empty (R89). -/
def bustxValidAt (s : State) (p : Port) : Bool := (adapterAt s p).started && !(adapterAt s p).txq.isEmpty

/-- `bustx_frame[p]` while valid: the head of the transmit FIFO, packed (R89). -/
def bustxFrameAt (s : State) (p : Port) : Option BusWord :=
  if bustxValidAt s p then (adapterAt s p).txq.head?.map packBus else none

/-- The lowest-numbered port with this property (R213). -/
def lowestPort (has : Port → Bool) : Option Port := (List.finRange Config.nports).find? has

/-- The port whose offered frame is taken in a cycle with neither reset nor a command (R213). -/
def arrivalPort (c : CycleIn) (s : State) : Option Port :=
  lowestPort fun p => c.busrxValid[p] && (adapterAt s p).started

/-- The port whose queued frame leaves in a cycle with no reset, command or arrival (R213). -/
def departurePort (c : CycleIn) (s : State) : Option Port :=
  lowestPort fun p => bustxValidAt s p && c.bustxReady[p]

/-- The step taken in a cycle, if any: reset, else the command, else an arrival, else a departure (R213). -/
def selectStep (c : CycleIn) (s : State) : Option AgentStep :=
  if c.rst then some .hardwareReset
  else if c.cmdValid then some (.command c.cmd)
  else match arrivalPort c s with
    | some p => some (.busRx p (unpackBus c.busrxFrame[p]))
    | none => (departurePort c s).map .busTx

/-- `busrx_ready[p]`: the block takes the offered frame this cycle (R89, R213). -/
def busrxReadyAt (c : CycleIn) (s : State) (p : Port) : Bool :=
  !c.rst && !c.cmdValid && arrivalPort c s = some p

/-- The state after a clock edge with these inputs. -/
def cycle (c : CycleIn) (s : State) : Host.Outcome State Fault Refusal :=
  match selectStep c s with
  | some a => agentStep a { s with env := c.env }
  | none => .next { s with env := c.env }

/-- The response among what a step has just shown: the last thing, if it is one. -/
def lastResponse (o : Host.Outcome State Fault Refusal) : Option Response :=
  match o with
  | .next t =>
    match t.obs.getLast? with
    | some (.response r) => some r
    | some (.emitted _ _) => none
    | some (.call _ _) => none
    | none => none
  | .fault _ => none
  | .refused _ => none

/-- The response given in this cycle: that of the command, if one is executed. A command presented in a reset cycle is not, and no
response is produced (R230); an undefined RECEIVE has none (R220). -/
def cycleResponse (c : CycleIn) (s : State) : Option Response :=
  if !c.rst && c.cmdValid then lastResponse (cycle c s) else none

/-- The outputs in a cycle with these inputs (R89): levels of the state during the cycle, and the command's response. `rsp_valid`
equals `cmd_valid`, in a reset cycle too; there `rsp` has no value (notes/assumptions/7.md). In the cycle of a RECEIVE with no frame
pending, of which R220 promises nothing, `rsp` has no value and `diag_pulse` is 0 (DESIGN CHOICE, unsafe, notes/assumptions/14.md). -/
def cycleOut (c : CycleIn) (s : State) : CycleOut :=
  { rspValid := c.cmdValid
    rsp := (cycleResponse c s).map rspWord
    diagPulse := ((cycleResponse c s).map Response.diag).getD false
    avail := availLevel s
    busrxReady := Vector.ofFn (busrxReadyAt c s)
    bustxValid := Vector.ofFn (bustxValidAt s)
    bustxFrame := Vector.ofFn (bustxFrameAt s)
    adpBitrate := Vector.ofFn fun p => (adapterAt s p).bitrate }

end Sys2Proof.Machine
end

