-- ==== Sys2Proof/Safety.lean ====
section
/-! DEFINITION. The terms in which claims are made: the block's state apart from the model's own fields, the invariant of every
reachable state (10_state.md R25, R33, R35 to R37), and what a stretch of a run has shown on a port. -/

namespace Sys2Proof.Safety

open Sys2Proof.Machine

/-- The two states hold the same block: every field of 10_state.md R24 to R36 agrees. -/
abbrev SameBlock (s t : State) : Prop :=
  t.mode = s.mode ∧ t.port = s.port ∧ t.rxcap = s.rxcap ∧ t.txcap = s.txcap ∧ t.poll = s.poll ∧ t.sent = s.sent ∧
    t.received = s.received ∧ t.adp = s.adp

/-- A FIFO is within its depth and holds well-formed frames (R35, R36). -/
abbrev FifoOk (q : List Frame) (depth : Byte) : Prop := q.length ≤ depth.toNat ∧ ∀ f ∈ q, f.wf = true

/-- What holds of every adapter at every step boundary: both FIFOs in order; empty when stopped; the fixed bit rate when started
(R33, R35 to R37, R125). -/
abbrev AdapterOk (a : Adapter) : Prop :=
  FifoOk a.rxq a.rxdepth ∧ FifoOk a.txq a.txdepth ∧ (a.started = false → a.rxq = [] ∧ a.txq = []) ∧
    (a.started = true → a.bitrate = 125000)

/-- The invariant: every adapter is in order, the started one is the bound one of an ACTIVE session and no other (R37), and an
UNBOUND block is on port 1 (R25). -/
abbrev Inv (s : State) : Prop :=
  (∀ p : Port, AdapterOk (adapterAt s p)) ∧
    (∀ p : Port, (adapterAt s p).started = true ↔ s.mode = .active ∧ s.port = p) ∧
    (s.mode = .unbound → s.port = Config.fallbackPort)

/-- `k` steps one after another, stopping at the first fault (20_memory.md R58). It is the host's run of the machine, spelled with
`step` (`Sys2Proof.Laws.hostRun_eq_runSteps`). -/
def runSteps : Nat → State → Host.Outcome State Fault Refusal
  | 0, s => .next s
  | k + 1, s =>
    match step s with
    | .next t => runSteps k t
    | .fault f => .fault f
    | .refused r => .refused r

/-- The frames that went out on the bus of a port. -/
def emittedOn (p : Port) (shown : List Obs) : List Frame :=
  shown.filterMap fun o =>
    match o with
    | .emitted q f => if q = p then some f else none
    | .call _ _ => none
    | .response _ => none

/-- The frames a port's adapter accepted from SEND. -/
def acceptedOn (p : Port) (shown : List Obs) : List Frame :=
  shown.filterMap fun o =>
    match o with
    | .call q (.trySend f accepted) => if q = p ∧ accepted = true then some f else none
    | .call _ _ => none
    | .emitted _ _ => none
    | .response _ => none

/-- The frames RECEIVE popped from a port's adapter. -/
def poppedOn (p : Port) (shown : List Obs) : List Frame :=
  shown.filterMap fun o =>
    match o with
    | .call q (.receive f) => if q = p then some f else none
    | .call _ _ => none
    | .emitted _ _ => none
    | .response _ => none

/-- The frames a bus agent offered to a port in these steps. -/
def offeredOn (p : Port) (steps : List Presented) : List Frame :=
  steps.filterMap fun x =>
    match x.agent with
    | .busRx q f => if q = p then some f else none
    | .busTx _ => none
    | .command _ => none
    | .hardwareReset => none

/-- The frame the next step queues in a port's receive FIFO: the one it offers to the port, if the adapter is started and has room. An
offered frame is missing only if the adapter is stopped or its FIFO is full (R181). -/
def arrivalKept (p : Port) (s : State) : List Frame :=
  match s.pending with
  | [] => []
  | x :: _ =>
    match x.agent with
    | .busRx q f =>
      if q = p ∧ (adapterAt s p).started = true ∧ (adapterAt s p).rxq.length < (adapterAt s p).rxdepth.toNat then [f] else []
    | .busTx _ => []
    | .command _ => []
    | .hardwareReset => []

/-- The frames the next `k` steps queue in a port's receive FIFO. -/
def keptOn (p : Port) : Nat → State → List Frame
  | 0, _ => []
  | k + 1, s =>
    match step s with
    | .next t => arrivalKept p s ++ keptOn p k t
    | .fault _ => []
    | .refused _ => []

/-- This is a begin or an end of a port's adapter: what discards its frames, hardware reset apart (R64). -/
def sessionCall (p : Port) (o : Obs) : Bool :=
  match o with
  | .call q c =>
    match c with
    | .begin _ _ _ _ => q = p
    | .endSession => q = p
    | .available _ => false
    | .receive _ => false
    | .trySend _ _ => false
    | .receiveErrorCounter _ => false
    | .transmitErrorCounter _ => false
  | .emitted _ _ => false
  | .response _ => false

/-- BEGIN or RESET: the commands that call an adapter's begin (R171). -/
def beginsSession : Instr → Bool
  | .encode _ _ => false
  | .decode _ => false
  | .begin _ => true
  | .available => false
  | .receive => false
  | .send _ _ _ _ _ _ => false
  | .reset => true
  | .setNumBuffers _ _ => false
  | .setPort _ => false
  | .status => false

/-- A host command that leaves every receive FIFO and the session alone: all but BEGIN, RESET, SETPORT and RECEIVE (R59 (c)). -/
def keepsReceived : Instr → Bool
  | .encode _ _ => true
  | .decode _ => true
  | .begin _ => false
  | .available => true
  | .receive => false
  | .send _ _ _ _ _ _ => true
  | .reset => false
  | .setNumBuffers _ _ => true
  | .setPort _ => false
  | .status => true

/-- An agent's step that removes no frame from a receive FIFO and can be taken: not BEGIN, RESET, SETPORT, RECEIVE or hardware
reset, and no arrival of a malformed frame (R59 (c), R182). -/
def harmless : AgentStep → Bool
  | .command w =>
    match decode w with
    | .instr i => keepsReceived i
    | .reservedOpcode _ => true
  | .busRx _ f => f.wf
  | .busTx _ => true
  | .hardwareReset => false

/-- AVAILABLE would answer true (R127, R129). -/
abbrev framePending (s : State) : Prop := s.mode = .active ∧ adapterAvailable (adapterAt s s.port) = true

/-- This step zeroes both counters: hardware reset, or a BEGIN or RESET whose adapter answers 0 (R164). -/
def zeroesCounters (a : AgentStep) (s : State) : Bool :=
  match a with
  | .hardwareReset => true
  | .busRx _ _ => false
  | .busTx _ => false
  | .command w =>
    s.env.status[s.port] = 0 &&
      match decode w with
      | .instr i => beginsSession i
      | .reservedOpcode _ => false

/-- A step has gone wrong in the one way the source calls undefined (R220). -/
def ReceiveUndefined (s : State) : Prop := step s = .fault .receiveUndefined

end Sys2Proof.Safety
end

