-- ==== Sys2Proof/Certificates/Slice0/Obligations.lean ====
section
/-! DEFINITION. The statements for the provers. Where a next state is written out as a record update of the state before, every field
not named is unchanged: that is the frame. The block has no program counter (R21) and no byte-addressed memory (R39); the FIFOs,
which are its memory, stand in `adp`. A docstring names the rule a statement formalises; where a clause rests on a decision D<n> that
the spec marks as its own, or on a choice of this model, it says so. -/

open Sys2Proof Sys2Proof.Machine Sys2Proof.Safety

/-! ## The step -/

/-- A host command at the head of the agents' steps runs as the decoded command does, with the environment's inputs it comes with and
the rest of the steps still to come (20_memory.md section 6; the list of steps is the model's: notes/assumptions/1.md, 2.md). -/
def Obligations.StepRunsDecodedCommand : Prop :=
  ∀ (s : State) (e : Env) (w : CmdWord) (rest : List Presented) (i : Instr),
    s.pending = ⟨e, .command w⟩ :: rest → decode w = .instr i → step s = exec i { s with env := e, pending := rest }

/-- A reserved opcode, 0xA to 0xF, is answered ILLEGAL_CMD with `flag`, `diag` and payload 0, and changes no state (decision D32). -/
def Obligations.ReservedOpcodeIsAnsweredIllegal : Prop :=
  ∀ (s : State) (e : Env) (w : CmdWord) (rest : List Presented),
    s.pending = ⟨e, .command w⟩ :: rest → 10 ≤ w.toNat % 16 →
      step s = .next { s with
        env := e, pending := rest
        obs := s.obs ++ [.response { code := .illegalCmd, flag := false, diag := false, w := 0 }] }

/-- No step is refused: every command and every agent's step has its meaning (the model's own claim). -/
def Obligations.NothingIsRefused : Prop := ∀ (s : State) (r : Refusal), step s ≠ .refused r

/-- A command goes wrong exactly where the spec calls the behaviour undefined: RECEIVE with no frame pending (decision D22). -/
def Obligations.OnlyUnguardedReceiveFaults : Prop :=
  ∀ (i : Instr) (s : State),
    ((∃ f, exec i s = .fault f) ↔ i = .receive ∧ ¬ framePending s) ∧ (∀ f, exec i s = .fault f → f = .receiveUndefined)

/-- What has been shown outside is output only: no step reads it (the model's own field, notes/assumptions/4.md). -/
def Obligations.HistoryIsOutputOnly : Prop :=
  ∀ (s : State) (o : List Obs),
    (∀ t, step s = .next t → ∃ new, t.obs = s.obs ++ new ∧ step { s with obs := o } = .next { t with obs := o ++ new }) ∧
      (∀ f, step s = .fault f → step { s with obs := o } = .fault f)

/-! ## Command words, frames and responses -/

/-- Decoding the word of a canonical command gives the command back, whatever its operands (the packing is decision D3). -/
def Obligations.DecodeEncodeAgree : Prop := ∀ i : Instr, i.wf = true → decode (encode i) = .instr i

/-- Every command the decoder reads is in canonical form: the fields it ignores are dropped (decision D32). -/
def Obligations.DecodedCommandsAreCanonical : Prop := ∀ (w : CmdWord) (i : Instr), decode w = .instr i → i.wf = true

/-- Two words with the same opcode that agree in the fields that opcode's command reads are the same command: `px` and, if it is 1,
`a` and `b`, and `c` for ENCODE; `id` for DECODE; bit 4 for BEGIN; for SEND `px` with `a` and `b`, `rtr`, `ext`, `len`, `id` and
the data lanes below `len`; `a` and `b` for SETNUMBUFFERS; `a` for SETPORT (decisions D3, D32). -/
def Obligations.IgnoredFieldsDoNotMatter : Prop :=
  ∀ w v : CmdWord, cmdOp w = cmdOp v →
    (cmdOp w = 0 ∨ cmdOp w = 5 → cmdPx w = cmdPx v ∧ (cmdPx w = true → cmdA w = cmdA v ∧ cmdB w = cmdB v)) →
    (cmdOp w = 0 → cmdC w = cmdC v) →
    (cmdOp w = 1 ∨ cmdOp w = 5 → cmdId w = cmdId v) →
    (cmdOp w = 2 → w.getLsbD 4 = v.getLsbD 4) →
    (cmdOp w = 5 → cmdRtr w = cmdRtr v ∧ cmdExt w = cmdExt v ∧ cmdLen w = cmdLen v ∧
      ∀ k, (cmdLen w).toNat ≤ 8 → k < 8 * (cmdLen w).toNat → (cmdData w).getLsbD k = (cmdData v).getLsbD k) →
    (cmdOp w = 7 → cmdA w = cmdA v ∧ cmdB w = cmdB v) →
    (cmdOp w = 8 → cmdA w = cmdA v) →
    decode w = decode v

/-- Words written out from the spec's encoding read as the commands they stand for (95_test_vectors.md T1, T14, T26, T52, T59, T62,
T81; decision D3). -/
def Obligations.WrittenWordsDecode : Prop :=
  decode 0x00000000000000000000000010502010 = .instr (.encode (some ⟨1, 2⟩) 5) ∧
  decode 0x00000000000000000000400000000001 = .instr (.decode 2048) ∧
  decode 0x00000000000000000000000000000012 = .instr (.begin true) ∧
  decode 0x0807060504030201000003FC50003035 = .instr (.send (some ⟨3, 3⟩) false true 8 127 0x0807060504030201) ∧
  decode 0x00000000000000000000000000002047 = .instr (.setNumBuffers 4 2) ∧
  decode 0x00000000000000000000000000000078 = .instr (.setPort 7) ∧
  decode 0xFFFFFFFFFFFFFFFFFFFFFFFFFFFFFFFF = .reservedOpcode 15

/-- A well-formed frame survives its packing, in the 128-bit layout and on a 99-bit bus-agent port (decision D3, conflict C11). -/
def Obligations.FramePackingLosesNothing : Prop :=
  ∀ f : Frame, f.wf = true → unpackFrame (packFrame f) = f ∧ unpackBus (packBus f) = f

/-- The line of text of a canonical command reads back as the command (30_encoding.md section 8; decision D33; a line is its mnemonic
and named operands: notes/assumptions/13.md). -/
def Obligations.TextFormLosesNothing : Prop := ∀ i : Instr, i.wf = true → readCommand (lineOf i) = some i

/-- Where each field of a response stands in the response word, and the numbers of the ten codes (30_encoding.md section 4; decision
D4). -/
def Obligations.ResponseWordLayout : Prop :=
  (codeBits .ok = 0 ∧ codeBits .initError = 1 ∧ codeBits .portWarning = 2 ∧ codeBits .sendRejected = 3 ∧
    codeBits .malformedLength = 4 ∧ codeBits .invalidPriority = 5 ∧ codeBits .invalidNodeId = 6 ∧ codeBits .invalidId = 7 ∧
    codeBits .notActive = 8 ∧ codeBits .illegalCmd = 9) ∧
  ∀ r : Response,
    (rspWord r).extractLsb' 0 4 = codeBits r.code ∧ (rspWord r).getLsbD 4 = r.flag ∧ (rspWord r).getLsbD 5 = r.diag ∧
      (rspWord r).extractLsb' 6 2 = 0 ∧ (rspWord r).extractLsb' 8 128 = r.w ∧
      (∀ q : Response, rspWord q = rspWord r → q = r)

/-! ## FrameCodec: ENCODE and DECODE -/

/-- For legal operands ENCODE completes, the identifier being `pmaj * 512 + pmin * 128 + node` (40_codec.md R100; the three terms are
disjoint, so it is the bit concatenation) at the `id` position of the payload (decision D4); no state changes. -/
def Obligations.EncodeBuildsHeader : Prop :=
  ∀ (prio : Option Prio) (major minor node : Byte) (s : State),
    (prio = some ⟨major, minor⟩ ∨ prio = none ∧ major = 2 ∧ minor = 3) →
    major.toNat ≤ 3 → minor.toNat ≤ 3 → node.toNat ≤ 127 →
      exec (.encode prio node) s = .next { s with obs := s.obs ++ [.response {
        code := .ok, flag := true, diag := false
        w := BitVec.ofNat 128 ((major.toNat * 512 + minor.toNat * 128 + node.toNat) * 2 ^ 35) }] }

/-- An operand out of range is rejected, never masked, the priority before the node identifier (decision D10 for the order); no state
changes. -/
def Obligations.EncodeRejectsOutOfRange : Prop :=
  ∀ (prio : Option Prio) (major minor node : Byte) (s : State),
    (prio = some ⟨major, minor⟩ ∨ prio = none ∧ major = 2 ∧ minor = 3) →
      (3 < major.toNat ∨ 3 < minor.toNat →
        exec (.encode prio node) s = .next { s with obs := s.obs ++ [.response {
          code := .invalidPriority, flag := false, diag := false, w := 0 }] }) ∧
      (major.toNat ≤ 3 ∧ minor.toNat ≤ 3 ∧ 127 < node.toNat →
        exec (.encode prio node) s = .next { s with obs := s.obs ++ [.response {
          code := .invalidNodeId, flag := false, diag := false, w := 0 }] })

/-- DECODE splits an identifier of 0..2047 into its three fields, at the payload positions of `a`, `b`, `c`, and rejects a larger one
INVALID_ID (decisions D4, D9); no state changes. -/
def Obligations.DecodeSplitsHeader : Prop :=
  ∀ (id : CanId) (s : State),
    (id.toNat ≤ 2047 →
      exec (.decode id) s = .next { s with obs := s.obs ++ [.response {
        code := .ok, flag := true, diag := false
        w := BitVec.ofNat 128 (id.toNat / 512 * 2 ^ 4 + id.toNat / 128 % 4 * 2 ^ 12 + id.toNat % 128 * 2 ^ 20) }] }) ∧
    (2047 < id.toNat →
      exec (.decode id) s = .next { s with obs := s.obs ++ [.response {
        code := .invalidId, flag := false, diag := false, w := 0 }] })

/-- DECODE of the identifier ENCODE returns gives back the triple, and ENCODE of the triple DECODE returns gives back the
identifier (40_codec.md R104, whose second half the spec marks as derived). -/
def Obligations.CodecRoundTrip : Prop :=
  (∀ (major minor node : Byte) (s : State), major.toNat ≤ 3 → minor.toNat ≤ 3 → node.toNat ≤ 127 →
    ∃ w v : Payload,
      exec (.encode (some ⟨major, minor⟩) node) s = .next (respond (okResponse true w) s) ∧
      exec (.decode (cmdId w)) s = .next (respond (okResponse true v) s) ∧
      cmdA v = major ∧ cmdB v = minor ∧ cmdC v = node) ∧
  (∀ (id : CanId) (s : State), id.toNat ≤ 2047 →
    ∃ w v : Payload,
      exec (.decode id) s = .next (respond (okResponse true w) s) ∧
      exec (.encode (some ⟨cmdA w, cmdB w⟩) (cmdC w)) s = .next (respond (okResponse true v) s) ∧
      cmdId v = id)

/-- Identifiers are ordered as their triples are, lexicographically; with equal nodes, priority (0, 0) is below (3, 3) (40_codec.md
R105, whose strong form the spec marks as derived). -/
def Obligations.HeaderOrderIsLexicographic : Prop :=
  ∀ (a₁ b₁ n₁ a₂ b₂ n₂ : Byte) (s : State),
    a₁.toNat ≤ 3 → b₁.toNat ≤ 3 → n₁.toNat ≤ 127 → a₂.toNat ≤ 3 → b₂.toNat ≤ 3 → n₂.toNat ≤ 127 →
    ∃ w₁ w₂ : Payload,
      exec (.encode (some ⟨a₁, b₁⟩) n₁) s = .next (respond (okResponse true w₁) s) ∧
      exec (.encode (some ⟨a₂, b₂⟩) n₂) s = .next (respond (okResponse true w₂) s) ∧
      ((cmdId w₁).toNat < (cmdId w₂).toNat ↔
        a₁.toNat < a₂.toNat ∨ a₁ = a₂ ∧ (b₁.toNat < b₂.toNat ∨ b₁ = b₂ ∧ n₁.toNat < n₂.toNat)) ∧
      (a₁ = 0 → b₁ = 0 → a₂ = 3 → b₂ = 3 → n₁ = n₂ → (cmdId w₁).toNat < (cmdId w₂).toNat)

/-- R88: without an explicit priority ENCODE and SEND behave as with (2, 3), and RESET is `end` of the bound adapter followed by the
body of BEGIN with the stored `poll`. -/
def Obligations.PseudoFormsExpand : Prop :=
  ∀ (node : Byte) (rtr ext : Bool) (len : BitVec 4) (id : CanId) (data : BitVec 64) (s : State),
    exec (.encode none node) s = exec (.encode (some ⟨2, 3⟩) node) s ∧
    exec (.send none rtr ext len id data) s = exec (.send (some ⟨2, 3⟩) rtr ext len id data) s ∧
    exec .reset s = exec (.begin s.poll) { s with
      adp := s.adp.set s.port { s.adp[s.port] with started := false, rxq := [], txq := [] }
      obs := s.obs ++ [.call s.port .endSession] }

/-! ## BufferedTransportPort -/

/-- BEGIN with adapter status 0 completes in every mode: ACTIVE, counters 0, `poll` stored, the bound adapter started and empty with
the configured capacities at 125000 b/s (decisions D14, D15, D17, D23 beside the source's own cells). -/
def Obligations.BeginStartsSession : Prop :=
  ∀ (pollMode : Bool) (s : State), s.env.status[s.port] = 0 →
    exec (.begin pollMode) s = .next { s with
      mode := .active, sent := 0, received := 0, poll := pollMode
      adp := s.adp.set s.port { started := true, bitrate := 125000, rxdepth := s.rxcap, txdepth := s.txcap, rxq := [], txq := [] }
      obs := s.obs ++ [.call s.port (.begin 125000 s.rxcap s.txcap 0),
        .response { code := .ok, flag := true, diag := false, w := 0 }] }

/-- BEGIN with another status answers INIT_ERROR with that status in `W[31:0]`: the adapter is stopped and empty, ACTIVE falls to
IDLE, everything else stays, the counters among it (decisions D16, D23). -/
def Obligations.FailedBeginReportsStatus : Prop :=
  ∀ (pollMode : Bool) (s : State) (st : Word32), s.env.status[s.port] = st → st ≠ 0 →
    exec (.begin pollMode) s = .next { s with
      mode := if s.mode = .active then .idle else s.mode
      adp := s.adp.set s.port { s.adp[s.port] with started := false, rxq := [], txq := [] }
      obs := s.obs ++ [.call s.port (.begin 125000 s.rxcap s.txcap st),
        .response { code := .initError, flag := false, diag := false, w := BitVec.ofNat 128 st.toNat }] }

/-- RESET ends the bound adapter's session and begins it again with the current capacities; `poll` is kept; on status 0 the session is
ACTIVE with counters 0, otherwise as a failed BEGIN (decision D18 outside ACTIVE and on failure). -/
def Obligations.ResetRestartsSession : Prop :=
  ∀ (s : State) (st : Word32), s.env.status[s.port] = st →
    (st = 0 →
      exec .reset s = .next { s with
        mode := .active, sent := 0, received := 0
        adp := s.adp.set s.port { started := true, bitrate := 125000, rxdepth := s.rxcap, txdepth := s.txcap, rxq := [], txq := [] }
        obs := s.obs ++ [.call s.port .endSession, .call s.port (.begin 125000 s.rxcap s.txcap 0),
          .response { code := .ok, flag := true, diag := false, w := 0 }] }) ∧
    (st ≠ 0 →
      exec .reset s = .next { s with
        mode := if s.mode = .active then .idle else s.mode
        adp := s.adp.set s.port { s.adp[s.port] with started := false, rxq := [], txq := [] }
        obs := s.obs ++ [.call s.port .endSession, .call s.port (.begin 125000 s.rxcap s.txcap st),
          .response { code := .initError, flag := false, diag := false, w := BitVec.ofNat 128 st.toNat }] })

/-- Two RESETs in a row with the same adapter status leave the block as one does (41_transport.md section 6, corner case (f)). -/
def Obligations.ResetIsIdempotent : Prop :=
  ∀ s : State, ∃ t u, exec .reset s = .next t ∧ exec .reset t = .next u ∧ SameBlock t u

/-- R125: every begin call the block makes passes the bit rate 125000. -/
def Obligations.BitRateIsFixed : Prop :=
  ∀ (s t : State) (p : Port) (br : Word32) (rx tx : Byte) (st : Word32), step s = .next t →
    ∃ new, t.obs = s.obs ++ new ∧ (.call p (.begin br rx tx st) ∈ new → br = 125000)

/-- AVAILABLE completes in every mode: outside ACTIVE it answers false and asks no adapter (decision D21); in ACTIVE it answers whether
the bound adapter has a frame queued. No state changes. -/
def Obligations.AvailableReportsQueuedFrame : Prop :=
  ∀ s : State,
    (s.mode ≠ .active → exec .available s = .next { s with obs := s.obs ++ [.response {
      code := .ok, flag := false, diag := false, w := 0 }] }) ∧
    (∀ answer : Bool, s.mode = .active → (answer = true ↔ (adapterAt s s.port).started = true ∧ (adapterAt s s.port).rxq ≠ []) →
      exec .available s = .next { s with obs := s.obs ++ [.call s.port (.available answer), .response {
        code := .ok, flag := answer, diag := false, w := 0 }] })

/-- RECEIVE with a frame pending completes: the oldest frame of the bound adapter is returned packed and unaltered, removed, and
counted; the count saturates (decision D12). Nothing else changes. -/
def Obligations.ReceivePopsOldestFrame : Prop :=
  ∀ (s : State) (f : Frame) (q : List Frame),
    s.mode = .active → (adapterAt s s.port).started = true → (adapterAt s s.port).rxq = f :: q →
      exec .receive s = .next { s with
        received := if s.received = 4294967295 then s.received else s.received + 1
        adp := s.adp.set s.port { s.adp[s.port] with rxq := q }
        obs := s.obs ++ [.call s.port (.receive f), .response { code := .ok, flag := true, diag := false, w := packFrame f }] }

/-- SEND of a well-formed frame in an ACTIVE session with room completes: the frame appended has the header for its identifier, the
first `len` bytes, and the flags as given; `sent` counts it and saturates. Nothing else changes (decisions D7, D8, D12). -/
def Obligations.SendQueuesFrame : Prop :=
  ∀ (prio : Option Prio) (major minor : Byte) (rtr ext : Bool) (len : BitVec 4) (id : CanId) (data : BitVec 64) (s : State) (g : Frame),
    (prio = some ⟨major, minor⟩ ∨ prio = none ∧ major = 2 ∧ minor = 3) →
    len.toNat ≤ 8 → major.toNat ≤ 3 → minor.toNat ≤ 3 → id.toNat ≤ 127 →
    s.mode = .active → (adapterAt s s.port).started = true →
    (adapterAt s s.port).txq.length < (adapterAt s s.port).txdepth.toNat →
    g = { id := BitVec.ofNat 29 (major.toNat * 512 + minor.toNat * 128 + id.toNat), len := len
          data := (List.range len.toNat).map fun k => BitVec.ofNat 8 (data.toNat / 2 ^ (8 * k)), rtr := rtr, ext := ext } →
      exec (.send prio rtr ext len id data) s = .next { s with
        sent := if s.sent = 4294967295 then s.sent else s.sent + 1
        adp := s.adp.set s.port { s.adp[s.port] with txq := s.adp[s.port].txq ++ [g] }
        obs := s.obs ++ [.call s.port (.trySend g true), .response { code := .ok, flag := true, diag := false, w := 0 }] }

/-- SEND with `len > 8` is answered MALFORMED_LENGTH, code 4, whatever else is wrong with it (60_exceptions.md R205; that it comes first
is decision D10, notes/assumptions/9.md); no state changes and the adapter is not called. -/
def Obligations.SendRejectsOverlongFrame : Prop :=
  codeBits .malformedLength = 4 ∧
  ∀ (prio : Option Prio) (rtr ext : Bool) (len : BitVec 4) (id : CanId) (data : BitVec 64) (s : State), 8 < len.toNat →
    exec (.send prio rtr ext len id data) s = .next { s with obs := s.obs ++ [.response {
      code := .malformedLength, flag := false, diag := false, w := 0 }] }

/-- INVALID_PRIORITY, code 5, is raised by ENCODE and by SEND when an explicit priority is above 3 (60_exceptions.md R206), whatever the
node identifier and the mode; SEND checks the length first (the order of checks is decision D10, notes/assumptions/9.md); no state
changes. -/
def Obligations.IllegalPriorityIsRejected : Prop :=
  codeBits .invalidPriority = 5 ∧
  ∀ (p : Prio) (node : Byte) (rtr ext : Bool) (len : BitVec 4) (id : CanId) (data : BitVec 64) (s : State),
    3 < p.major.toNat ∨ 3 < p.minor.toNat → len.toNat ≤ 8 →
      exec (.encode (some p) node) s = .next { s with obs := s.obs ++ [.response {
        code := .invalidPriority, flag := false, diag := false, w := 0 }] } ∧
      exec (.send (some p) rtr ext len id data) s = .next { s with obs := s.obs ++ [.response {
        code := .invalidPriority, flag := false, diag := false, w := 0 }] }

/-- R203: a SEND that passes every check with the transmit FIFO full is answered SEND_REJECTED, code 3: the adapter is asked once and
says no, nothing is recorded and no state changes, so the frame is dropped. -/
def Obligations.SendToFullBufferIsRejected : Prop :=
  codeBits .sendRejected = 3 ∧
  ∀ (prio : Option Prio) (rtr ext : Bool) (len : BitVec 4) (id : CanId) (data : BitVec 64) (s : State),
    len.toNat ≤ 8 → (∀ p, prio = some p → p.major.toNat ≤ 3 ∧ p.minor.toNat ≤ 3) → id.toNat ≤ 127 → s.mode = .active →
    (adapterAt s s.port).txdepth.toNat ≤ (adapterAt s s.port).txq.length →
      ∃ g, exec (.send prio rtr ext len id data) s = .next { s with obs := s.obs ++ [.call s.port (.trySend g false), .response {
        code := .sendRejected, flag := false, diag := false, w := 0 }] }

/-- The remaining causes in their order: with length and priority legal a node identifier above 127 is INVALID_NODE_ID, and a SEND
with nothing wrong outside ACTIVE is NOT_ACTIVE; no state changes (decisions D7, D10, D21). -/
def Obligations.SendRejectsNodeThenMode : Prop :=
  ∀ (prio : Option Prio) (rtr ext : Bool) (len : BitVec 4) (id : CanId) (data : BitVec 64) (s : State),
    len.toNat ≤ 8 → (∀ p, prio = some p → p.major.toNat ≤ 3 ∧ p.minor.toNat ≤ 3) →
      (127 < id.toNat → exec (.send prio rtr ext len id data) s = .next { s with obs := s.obs ++ [.response {
        code := .invalidNodeId, flag := false, diag := false, w := 0 }] }) ∧
      (id.toNat ≤ 127 → s.mode ≠ .active → exec (.send prio rtr ext len id data) s = .next { s with obs := s.obs ++ [.response {
        code := .notActive, flag := false, diag := false, w := 0 }] })

/-- The data of the frame an accepted SEND queues is the first `len` bytes supplied, none modified, none added (41_transport.md R132;
which bits are byte k is decision D28). With other data the next state is the same but for the data of the frame queued and shown in
the trySend call. An illegal length is found before any use of the data: all is then the same whatever the data. -/
def Obligations.SendCopiesDataExactly : Prop :=
  ∀ (prio : Option Prio) (rtr ext : Bool) (len : BitVec 4) (id : CanId) (data data' : BitVec 64) (s t u : State) (g : Frame),
    (exec (.send prio rtr ext len id data) s = .next t → (adapterAt t s.port).txq = (adapterAt s s.port).txq ++ [g] →
      g.data.length = len.toNat ∧ ∀ k, k < len.toNat → g.data[k]? = some (data.extractLsb' (8 * k) 8)) ∧
    (exec (.send prio rtr ext len id data) s = .next t → exec (.send prio rtr ext len id data') s = .next u →
      u = t ∨ ∃ (f : Frame) (d : List Byte) (accepted : Bool) (r : Response),
        let ended (x : Frame) : State := { t with
          adp := if accepted = true then s.adp.set s.port { s.adp[s.port] with txq := s.adp[s.port].txq ++ [x] } else s.adp
          obs := s.obs ++ [.call s.port (.trySend x accepted), .response r] }
        t = ended f ∧ u = ended { f with data := d }) ∧
    (8 < len.toNat → exec (.send prio rtr ext len id data) s = exec (.send prio rtr ext len id data') s)

/-- SETNUMBUFFERS completes in every mode and writes the two capacities only (decision D36). -/
def Obligations.SetNumBuffersWritesCapacities : Prop :=
  ∀ (rx tx : Byte) (s : State),
    exec (.setNumBuffers rx tx) s = .next { s with
      rxcap := rx, txcap := tx, obs := s.obs ++ [.response { code := .ok, flag := true, diag := false, w := 0 }] }

/-- The running session keeps its depths after SETNUMBUFFERS, and a RESET that succeeds takes the new ones (20_memory.md section 9,
41_transport.md section 7). -/
def Obligations.CapacitiesTakeEffectAtReset : Prop :=
  ∀ (rx tx : Byte) (s : State), s.env.status[s.port] = 0 →
    ∃ t u, exec (.setNumBuffers rx tx) s = .next t ∧ t.adp = s.adp ∧ exec .reset t = .next u ∧
      (adapterAt u s.port).rxdepth = rx ∧ (adapterAt u s.port).txdepth = tx ∧ (adapterAt u s.port).started = true

/-- SETPORT with a legal ordinal binds that port and goes to IDLE; an ACTIVE session's adapter is stopped and emptied first, even when
the port is the same; the counters, the configuration and the new adapter stay (decisions D14, D19). -/
def Obligations.SetPortRebinds : Prop :=
  ∀ (n : Byte) (p : Port) (s : State), n.toNat = p.val + 1 →
    (s.mode = .active → exec (.setPort n) s = .next { s with
      port := p, mode := .idle
      adp := s.adp.set s.port { s.adp[s.port] with started := false, rxq := [], txq := [] }
      obs := s.obs ++ [.call s.port .endSession, .response { code := .ok, flag := true, diag := false, w := 0 }] }) ∧
    (s.mode ≠ .active → exec (.setPort n) s = .next { s with
      port := p, mode := .idle, obs := s.obs ++ [.response { code := .ok, flag := true, diag := false, w := 0 }] })

/-- SETPORT with ordinal 0 or above NPORTS takes full effect with port 1 and answers PORT_WARNING with `flag` and `diag` 1 (decisions
D11, D19, D20). -/
def Obligations.InvalidPortFallsBack : Prop :=
  ∀ (n : Byte) (s : State), n.toNat = 0 ∨ 3 < n.toNat →
    (s.mode = .active → exec (.setPort n) s = .next { s with
      port := ⟨0, by decide⟩, mode := .idle
      adp := s.adp.set s.port { s.adp[s.port] with started := false, rxq := [], txq := [] }
      obs := s.obs ++ [.call s.port .endSession, .response { code := .portWarning, flag := true, diag := true, w := 0 }] }) ∧
    (s.mode ≠ .active → exec (.setPort n) s = .next { s with
      port := ⟨0, by decide⟩, mode := .idle
      obs := s.obs ++ [.response { code := .portWarning, flag := true, diag := true, w := 0 }] })

/-- STATUS completes in every mode: the four values at their payload positions, in one step; no state changes (decisions D4, D35). -/
def Obligations.StatusReportsSnapshot : Prop :=
  ∀ s : State,
    exec .status s = .next { s with obs := s.obs ++ [
      .call s.port (.receiveErrorCounter s.env.rxErr[s.port]), .call s.port (.transmitErrorCounter s.env.txErr[s.port]),
      .response { code := .ok, flag := true, diag := false
                  w := BitVec.ofNat 128 (s.sent.toNat + s.received.toNat * 2 ^ 32 + s.env.rxErr[s.port].toNat * 2 ^ 64 +
                    s.env.txErr[s.port].toNat * 2 ^ 96) }] }

/-- A host that reads a STATUS payload back gets the four values, and its status text is the fixed line with them (R166; the number
format is decision D31). -/
def Obligations.StatusTextRendersSnapshot : Prop :=
  ∀ sent received rxErrors txErrors : Word32,
    snapshotOf (statusPayload sent received rxErrors txErrors) = ⟨sent, received, rxErrors, txErrors⟩ ∧
    statusText (snapshotOf (statusPayload sent received rxErrors txErrors)) =
      "CBUS status: messages received = " ++ toString received.toNat ++ ", sent = " ++ toString sent.toNat ++
        ", receive errors = " ++ toString rxErrors.toNat ++ ", transmit errors = " ++ toString txErrors.toNat

/-! ## Whole-machine rules -/

/-- The mode after each command, from each mode (41_transport.md section 1; decisions D14, D15, D16, D18, D19 beside the source's
cells). -/
def Obligations.ModeTransitionTable : Prop :=
  ∀ (i : Instr) (s t : State), exec i s = .next t →
    t.mode =
      if beginsSession i = true then
        if s.env.status[s.port] = 0 then .active else if s.mode = .active then .idle else s.mode
      else if ∃ n, i = .setPort n then .idle else s.mode

/-- No command but SETPORT writes `port`, none but SETNUMBUFFERS the capacities (10_state.md R25 to R27, "Written by"), and none but
BEGIN `poll` (R28, decision D17). -/
def Obligations.ConfigurationWriters : Prop :=
  ∀ (i : Instr) (s t : State), exec i s = .next t →
    ((∀ n, i ≠ .setPort n) → t.port = s.port) ∧
    ((∀ rx tx, i ≠ .setNumBuffers rx tx) → t.rxcap = s.rxcap ∧ t.txcap = s.txcap) ∧
    ((∀ m, i ≠ .begin m) → t.poll = s.poll)

/-- A command touches no adapter but the one bound at the start of the step (41_transport.md section 1; decision D14). -/
def Obligations.CommandsTouchBoundAdapterOnly : Prop :=
  ∀ (i : Instr) (s t : State) (q : Port), exec i s = .next t → q ≠ s.port → adapterAt t q = adapterAt s q

/-- A command produces its one response in the same step (41_transport.md R122), after the capability calls it makes, all of them on the
bound adapter (R121, decision D14; that calls and response stand in one shown list is the model's: notes/assumptions/4.md). -/
def Obligations.EveryCommandRespondsAtOnce : Prop :=
  ∀ (i : Instr) (s t : State), exec i s = .next t →
    ∃ (calls : List Call) (r : Response), t.obs = s.obs ++ calls.map (.call s.port) ++ [.response r]

/-- A rejecting response, any but OK, INIT_ERROR and PORT_WARNING, carries its code with `flag`, `diag` and payload 0, and the
state is as before; the adapter is not called, except by the SEND it refuses itself (60_exceptions.md R210,
41_transport.md R131). -/
def Obligations.RejectedCommandsChangeNothing : Prop :=
  ∀ (i : Instr) (s t : State) (r : Response), exec i s = .next t → t.obs.getLast? = some (.response r) →
    r.code ≠ .ok → r.code ≠ .initError → r.code ≠ .portWarning →
      SameBlock s t ∧ r.flag = false ∧ r.diag = false ∧ r.w = 0 ∧ (r.code ≠ .sendRejected → t.obs = s.obs ++ [.response r])

/-- A response code other than OK names its cause: which command gave it, and what was wrong (60_exceptions.md section 1, "Raised by";
decisions D7, D9, D11, D21). ILLEGAL_CMD comes from no command: only a reserved opcode is answered so. -/
def Obligations.ErrorCodesNameTheirCause : Prop :=
  ∀ (i : Instr) (s t : State) (r : Response), exec i s = .next t → t.obs.getLast? = some (.response r) →
    (r.code = .initError → beginsSession i = true ∧ s.env.status[s.port] ≠ 0) ∧
    (r.code = .portWarning → ∃ n, i = .setPort n ∧ (n.toNat = 0 ∨ 3 < n.toNat)) ∧
    (r.code = .sendRejected → ∃ prio rtr ext len id data, i = .send prio rtr ext len id data ∧ len.toNat ≤ 8 ∧ id.toNat ≤ 127 ∧
      s.mode = .active ∧
      ((adapterAt s s.port).started = false ∨ (adapterAt s s.port).txdepth.toNat ≤ (adapterAt s s.port).txq.length)) ∧
    (r.code = .malformedLength → ∃ prio rtr ext len id data, i = .send prio rtr ext len id data ∧ 8 < len.toNat) ∧
    (r.code = .invalidPriority → ∃ p : Prio, (3 < p.major.toNat ∨ 3 < p.minor.toNat) ∧
      ((∃ node, i = .encode (some p) node) ∨ ∃ rtr ext len id data, i = .send (some p) rtr ext len id data)) ∧
    (r.code = .invalidNodeId →
      (∃ prio node, i = .encode prio node ∧ 127 < node.toNat) ∨
        ∃ prio rtr ext len id data, i = .send prio rtr ext len id data ∧ 127 < id.toNat) ∧
    (r.code = .invalidId → ∃ id, i = .decode id ∧ 2047 < id.toNat) ∧
    (r.code = .notActive → (∃ prio rtr ext len id data, i = .send prio rtr ext len id data) ∧ s.mode ≠ .active) ∧
    r.code ≠ .illegalCmd

/-- R31: no command lowers a counter but a successful BEGIN or RESET, and that clears both together. -/
def Obligations.CountersClearOnlyTogether : Prop :=
  ∀ (i : Instr) (s t : State), exec i s = .next t →
    t.sent.toNat < s.sent.toNat ∨ t.received.toNat < s.received.toNat →
      beginsSession i = true ∧ s.env.status[s.port] = 0 ∧ t.sent = 0 ∧ t.received = 0

/-- What the counters count, over every agent's step: `sent` goes up by one for a SEND the bound adapter accepts and `received` by one
for a frame RECEIVE pops, saturating at 2^32 - 1, and nothing else moves them but the steps that zero both (42_statistics.md;
decisions D12, D16). -/
def Obligations.CountersCountEvents : Prop :=
  ∀ (a : AgentStep) (s t : State), agentStep a s = .next t →
    (zeroesCounters a s = true → t.sent = 0 ∧ t.received = 0) ∧
    (zeroesCounters a s = false → ∃ new, t.obs = s.obs ++ new ∧
      t.sent.toNat = min (s.sent.toNat + (acceptedOn s.port new).length) (2 ^ 32 - 1) ∧
      t.received.toNat = min (s.received.toNat + (poppedOn s.port new).length) (2 ^ 32 - 1))

/-! ## The adapter, the bus agent and hardware reset -/

/-- BUS_RX on a started adapter: a well-formed frame is queued if there is room and lost without a trace if not; a malformed one stops
the model (decisions D23, D24; the fault is notes/assumptions/6.md). On a stopped adapter the step is not taken
(notes/assumptions/5.md). -/
def Obligations.BusArrivalIsQueuedOrLost : Prop :=
  ∀ (p : Port) (f : Frame) (s : State),
    ((adapterAt s p).started = true → f.wf = true → (adapterAt s p).rxq.length < (adapterAt s p).rxdepth.toNat →
      agentStep (.busRx p f) s = .next { s with adp := s.adp.set p { s.adp[p] with rxq := s.adp[p].rxq ++ [f] } }) ∧
    ((adapterAt s p).started = true → f.wf = true → (adapterAt s p).rxdepth.toNat ≤ (adapterAt s p).rxq.length →
      agentStep (.busRx p f) s = .next s) ∧
    ((adapterAt s p).started = true → f.wf = false → agentStep (.busRx p f) s = .fault .malformedArrival) ∧
    ((adapterAt s p).started = false → agentStep (.busRx p f) s = .next s)

/-- BUS_TX on a started adapter puts the oldest frame of the transmit FIFO on the bus; with nothing queued, or stopped, the step is not
taken (decision D25; notes/assumptions/5.md). -/
def Obligations.BusDepartureEmitsOldest : Prop :=
  ∀ (p : Port) (s : State) (g : Frame) (q : List Frame),
    ((adapterAt s p).started = true → (adapterAt s p).txq = g :: q →
      agentStep (.busTx p) s = .next { s with
        adp := s.adp.set p { s.adp[p] with txq := q }, obs := s.obs ++ [.emitted p g] }) ∧
    ((adapterAt s p).started = false ∨ (adapterAt s p).txq = [] → agentStep (.busTx p) s = .next s)

/-- The bus agent touches the FIFOs of its own port and nothing else of the block (60_exceptions.md section 8). -/
def Obligations.BusAgentTouchesOwnFifosOnly : Prop :=
  ∀ (p : Port) (f : Frame) (s t : State), agentStep (.busRx p f) s = .next t ∨ agentStep (.busTx p) s = .next t →
    t.mode = s.mode ∧ t.port = s.port ∧ t.rxcap = s.rxcap ∧ t.txcap = s.txcap ∧ t.poll = s.poll ∧ t.sent = s.sent ∧
      t.received = s.received ∧ (∀ q, q ≠ p → adapterAt t q = adapterAt s q) ∧
      ∃ rxq txq, adapterAt t p = { adapterAt s p with rxq := rxq, txq := txq }

/-- Loopback: a frame that arrives at an empty receive FIFO with room is what the next RECEIVE returns, every bit of it read back from
the response, and `received` goes up by exactly 1 (20_memory.md section 1; decisions D23, D28). -/
def Obligations.ArrivalIsReturnedByReceive : Prop :=
  ∀ (f : Frame) (s : State), s.mode = .active → (adapterAt s s.port).started = true → (adapterAt s s.port).rxq = [] →
    0 < (adapterAt s s.port).rxdepth.toNat → f.wf = true → s.received.toNat < 2 ^ 32 - 1 →
    ∃ t u w, agentStep (.busRx s.port f) s = .next t ∧ exec .receive t = .next u ∧
      u.obs.getLast? = some (.response { code := .ok, flag := true, diag := false, w := w }) ∧ unpackFrame w = f ∧
      u.received.toNat = s.received.toNat + 1 ∧ (adapterAt u s.port).rxq = []

/-- Hardware reset sets every piece of the block's state to its reset value; the environment's inputs, the steps to come and what has
been shown stay, and no response is produced (10_state.md section 7; decisions D14, D17, D23, D30). -/
def Obligations.HardwareResetValues : Prop :=
  ∀ s : State,
    agentStep .hardwareReset s = .next {
      mode := .unbound, port := ⟨0, by decide⟩, rxcap := 32, txcap := 16, poll := false, sent := 0, received := 0
      adp := Vector.replicate 3 { started := false, bitrate := 0, rxdepth := 0, txdepth := 0, rxq := [], txq := [] }
      env := s.env, pending := s.pending, obs := s.obs }

/-! ## Invariants and runs -/

/-- The machine right after reset meets the invariant (10_state.md R25, R35 to R37). -/
def Obligations.ResetStateMeetsInvariant : Prop := Inv State.reset

/-- Every step keeps the invariant: each adapter's FIFOs are within their depths and hold well-formed frames, a stopped one is empty, a
started one runs at 125000 b/s; the started adapter is the bound one of an ACTIVE session and no other; an UNBOUND block is on port 1
(10_state.md R25, R35 to R37). -/
def Obligations.StepKeepsInvariant : Prop := ∀ s t : State, Inv s → step s = .next t → Inv t

/-- Transmit order, over any run with no hardware reset among its steps: while no begin or end is called on a port, the frames that went
out on its bus, followed by those still queued, are the frames queued at the start followed by those SEND had accepted, in order
(20_memory.md section 6, (b); decision D25). -/
def Obligations.TransmitFifoKeepsOrder : Prop :=
  ∀ (k : Nat) (s t : State) (p : Port), runSteps k s = .next t →
    (∀ x ∈ s.pending, x.agent ≠ .hardwareReset) →
    ∃ new, t.obs = s.obs ++ new ∧
      ((∀ o ∈ new, sessionCall p o = false) →
        emittedOn p new ++ (adapterAt t p).txq = (adapterAt s p).txq ++ acceptedOn p new)

/-- Receive order, over any run with no hardware reset among its steps: while no begin or end is called on a port, the frames RECEIVE
popped, followed by those still queued, are the frames queued at the start followed by those kept of the frames the bus offered, in
order. A frame is kept when the port's adapter is started and its FIFO has room at that step, and is missing otherwise (20_memory.md
section 6, (a); decision D24; that a stopped adapter passes an offered frame over is notes/assumptions/5.md). -/
def Obligations.ReceiveFifoKeepsOrder : Prop :=
  ∀ (k : Nat) (s t : State) (p : Port), runSteps k s = .next t →
    (∀ x ∈ s.pending, x.agent ≠ .hardwareReset) →
    ∃ new, t.obs = s.obs ++ new ∧
      ((∀ o ∈ new, sessionCall p o = false) →
        (keptOn p k s).Sublist (offeredOn p (s.pending.take k)) ∧
          poppedOn p new ++ (adapterAt t p).rxq = (adapterAt s p).rxq ++ keptOn p k s)

/-- The guard is sound: once AVAILABLE would answer true, whatever steps come before the RECEIVE, if none is a SETPORT, RESET, BEGIN,
RECEIVE or hardware reset (and no malformed frame arrives), the RECEIVE finds a frame and completes, and the frame is the one that was
oldest at the guard (20_memory.md section 6, (c); 70_reset_and_hazards.md R234). -/
def Obligations.GuardedReceiveCompletes : Prop :=
  ∀ (before rest : List Presented) (e : Env) (w : CmdWord) (s : State) (f : Frame) (q : List Frame),
    framePending s → (adapterAt s s.port).rxq = f :: q → s.pending = before ++ ⟨e, .command w⟩ :: rest →
    (∀ x ∈ before, harmless x.agent = true) → decode w = .instr .receive →
    ∃ u t, runSteps before.length s = .next u ∧ step u = .next t ∧
      t.obs.getLast? = some (.response { code := .ok, flag := true, diag := false, w := packFrame f })

/-! ## The signal-level carrier -/

/-- A clock cycle takes at most one step, and it is a step of the total order that is on offer in the cycle: reset when `rst` is 1, the
presented command, a frame offered to a started adapter, a departure the bus is ready for; if one is on offer, one is taken. Which of
them is left unsaid: no claim may rest on the priority order of R213 (60_exceptions.md section 3; decision D2). -/
def Obligations.CycleIsOneStep : Prop :=
  ∀ (c : CycleIn) (s : State), s.pending = [] →
    (∀ a, selectStep c s = some a → cycle c s = step { s with pending := [⟨c.env, a⟩] }) ∧
    (selectStep c s = none → cycle c s = .next { s with env := c.env }) ∧
    (selectStep c s = some .hardwareReset → c.rst = true) ∧
    (∀ w, selectStep c s = some (.command w) → c.cmdValid = true ∧ w = c.cmd) ∧
    (∀ p f, selectStep c s = some (.busRx p f) →
      c.busrxValid[p] = true ∧ (adapterAt s p).started = true ∧ f = unpackBus c.busrxFrame[p]) ∧
    (∀ p, selectStep c s = some (.busTx p) →
      (adapterAt s p).started = true ∧ (adapterAt s p).txq ≠ [] ∧ c.bustxReady[p] = true) ∧
    (c.rst = true ∨ c.cmdValid = true ∨ (∃ p : Port, c.busrxValid[p] = true ∧ (adapterAt s p).started = true) ∨
      (∃ p : Port, (adapterAt s p).started = true ∧ (adapterAt s p).txq ≠ [] ∧ c.bustxReady[p] = true) →
      selectStep c s ≠ none)

/-- `rsp_valid` equals `cmd_valid` in every cycle. In a cycle with a command and no reset the response word is that of the command, or
ILLEGAL_CMD for a reserved opcode, and `diag_pulse` mirrors its `diag` (30_encoding.md section 9; decisions D2, D20, D32). -/
def Obligations.CommandCycleCarriesResponse : Prop :=
  ∀ (c : CycleIn) (s : State), (cycleOut c s).rspValid = c.cmdValid ∧
    (c.rst = false → c.cmdValid = true →
      (∀ (i : Instr) (t : State), decode c.cmd = .instr i → exec i { s with env := c.env } = .next t →
        ∃ r, t.obs.getLast? = some (.response r) ∧ (cycleOut c s).rsp = some (rspWord r) ∧ (cycleOut c s).diagPulse = r.diag) ∧
      (∀ op, decode c.cmd = .reservedOpcode op →
        (cycleOut c s).rsp = some (rspWord { code := .illegalCmd, flag := false, diag := false, w := 0 }) ∧
          (cycleOut c s).diagPulse = false))

/-! ## The FIFOs, one step at a time -/

/-- Every step but hardware reset keeps a port's transmit order: unless it calls a begin or an end on the port, what it puts on the bus
followed by the queue after is the queue before followed by what it accepts (20_memory.md section 6, (b); decision D25). -/
def Obligations.StepKeepsTransmitOrder : Prop :=
  ∀ (s t : State) (p : Port), step s = .next t → (∀ x, s.pending.head? = some x → x.agent ≠ .hardwareReset) →
    ∃ new, t.obs = s.obs ++ new ∧
      ((∀ o ∈ new, sessionCall p o = false) →
        emittedOn p new ++ (adapterAt t p).txq = (adapterAt s p).txq ++ acceptedOn p new)

/-- Every step but hardware reset keeps a port's receive order: unless it calls a begin or an end on the port, what RECEIVE pops followed
by the queue after is the queue before followed by the frame that arrives, if the adapter is started and has room for it (20_memory.md
section 6, (a); decision D24; notes/assumptions/5.md). -/
def Obligations.StepKeepsReceiveOrder : Prop :=
  ∀ (s t : State) (p : Port), step s = .next t → (∀ x, s.pending.head? = some x → x.agent ≠ .hardwareReset) →
    ∃ new, t.obs = s.obs ++ new ∧
      ((∀ o ∈ new, sessionCall p o = false) →
        poppedOn p new ++ (adapterAt t p).rxq = (adapterAt s p).rxq ++ arrivalKept p s)
end

