-- ==== Sys2Proof/Laws/Encoding.lean ====
section
/-! SUPPORT. Every bit of a packed word, and its fields read back (30_encoding.md R71). -/

namespace Sys2Proof

/-- Each bit of a word is a bit of the field that stands there (R71). -/
theorem packCmd_getLsbD (f : CmdFields) (i : Nat) :
    (packCmd f).getLsbD i =
      if i < 4 then f.op.getLsbD i else if i < 12 then f.a.getLsbD (i - 4) else if i < 20 then f.b.getLsbD (i - 12)
      else if i < 28 then f.c.getLsbD (i - 20) else if i < 29 then f.px else if i < 30 then f.rtr else if i < 31 then f.ext
      else if i < 35 then f.len.getLsbD (i - 31) else if i < 64 then f.id.getLsbD (i - 35) else f.data.getLsbD (i - 64) := by
  unfold packCmd
  repeat rw [BitVec.getLsbD_append]
  simp only [BitVec.getLsbD_ofBool]
  grind (splits := 20)

/-- `op` reads back. -/
@[simp] theorem cmdOp_packCmd (f : CmdFields) : cmdOp (packCmd f) = f.op := by
  apply BitVec.eq_of_getLsbD_eq; intro i hi
  simp only [cmdOp, BitVec.getLsbD_extractLsb', packCmd_getLsbD]; grind

/-- `a` reads back. -/
@[simp] theorem cmdA_packCmd (f : CmdFields) : cmdA (packCmd f) = f.a := by
  apply BitVec.eq_of_getLsbD_eq; intro i hi
  simp only [cmdA, BitVec.getLsbD_extractLsb', packCmd_getLsbD]; grind

/-- `b` reads back. -/
@[simp] theorem cmdB_packCmd (f : CmdFields) : cmdB (packCmd f) = f.b := by
  apply BitVec.eq_of_getLsbD_eq; intro i hi
  simp only [cmdB, BitVec.getLsbD_extractLsb', packCmd_getLsbD]; grind

/-- `c` reads back. -/
@[simp] theorem cmdC_packCmd (f : CmdFields) : cmdC (packCmd f) = f.c := by
  apply BitVec.eq_of_getLsbD_eq; intro i hi
  simp only [cmdC, BitVec.getLsbD_extractLsb', packCmd_getLsbD]; grind

/-- `px` reads back. -/
@[simp] theorem cmdPx_packCmd (f : CmdFields) : cmdPx (packCmd f) = f.px := packCmd_getLsbD f 28

/-- `rtr` reads back. -/
@[simp] theorem cmdRtr_packCmd (f : CmdFields) : cmdRtr (packCmd f) = f.rtr := packCmd_getLsbD f 29

/-- `ext` reads back. -/
@[simp] theorem cmdExt_packCmd (f : CmdFields) : cmdExt (packCmd f) = f.ext := packCmd_getLsbD f 30

/-- `len` reads back. -/
@[simp] theorem cmdLen_packCmd (f : CmdFields) : cmdLen (packCmd f) = f.len := by
  apply BitVec.eq_of_getLsbD_eq; intro i hi
  simp only [cmdLen, BitVec.getLsbD_extractLsb', packCmd_getLsbD]; grind (splits := 20)

/-- `id` reads back. -/
@[simp] theorem cmdId_packCmd (f : CmdFields) : cmdId (packCmd f) = f.id := by
  apply BitVec.eq_of_getLsbD_eq; intro i hi
  simp only [cmdId, BitVec.getLsbD_extractLsb', packCmd_getLsbD]; grind (splits := 20)

/-- `data` reads back. -/
@[simp] theorem cmdData_packCmd (f : CmdFields) : cmdData (packCmd f) = f.data := by
  apply BitVec.eq_of_getLsbD_eq; intro i hi
  simp only [cmdData, BitVec.getLsbD_extractLsb', packCmd_getLsbD]; grind (splits := 20)

/-- Bit 4 is the least significant bit of `a` (R71: `a[0]` = `pollMode`). -/
theorem packCmd_bit_four (f : CmdFields) : (packCmd f).getLsbD 4 = f.a.getLsbD 0 := packCmd_getLsbD f 4

/-- The bits of the lanes kept are those below `8 * len`, and none with `len > 8` (R77). -/
theorem keepLanes_getLsbD (len : BitVec 4) (data : BitVec 64) (i : Nat) :
    (keepLanes len data).getLsbD i = (decide (len.toNat ≤ 8 ∧ i < 8 * len.toNat) && data.getLsbD i) := by
  unfold keepLanes
  split
  · simp only [BitVec.getLsbD_and, BitVec.getLsbD_ushiftRight, BitVec.getLsbD_allOnes]
    by_cases h : i < 8 * len.toNat <;> simp [*] <;> grind
  · simp [*]

end Sys2Proof
end

