-- ==== Sys2Proof/Laws/Operands.lean ====
section
/-! SUPPORT. The operand forms and the packed words as numbers and as bits, once. -/

namespace Sys2Proof

/-- The number a concatenation holds. -/
theorem toNat_append_eq {m n : Nat} (x : BitVec m) (y : BitVec n) : (x ++ y).toNat = x.toNat * 2 ^ n + y.toNat := by
  rw [BitVec.toNat_append, ← Nat.shiftLeft_add_eq_or_of_lt y.isLt, Nat.shiftLeft_eq]

/-- The number a packed word holds (R71). -/
theorem packCmd_toNat (f : CmdFields) :
    (packCmd f).toNat =
      f.op.toNat + f.a.toNat * 2 ^ 4 + f.b.toNat * 2 ^ 12 + f.c.toNat * 2 ^ 20 + f.px.toNat * 2 ^ 28 + f.rtr.toNat * 2 ^ 29 +
        f.ext.toNat * 2 ^ 30 + f.len.toNat * 2 ^ 31 + f.id.toNat * 2 ^ 35 + f.data.toNat * 2 ^ 64 := by
  unfold packCmd
  repeat rw [toNat_append_eq]
  simp only [BitVec.toNat_ofBool]
  ring

namespace Machine

/-- What a well-formed frame is (R13). -/
theorem Frame.wf_iff {f : Frame} :
    f.wf = true ↔ f.len.toNat ≤ 8 ∧ f.data.length = f.len.toNat ∧ (f.ext = true ∨ f.id.toNat < 2048) := by
  simp [Frame.wf, Config.lenMax, and_assoc]

/-- Both priorities are in range (R74). -/
theorem priorityLegal_iff {p : Prio} : priorityLegal p = true ↔ p.major.toNat ≤ 3 ∧ p.minor.toNat ≤ 3 := by
  simp [priorityLegal, Config.priorityMax]

/-- A node identifier is in range (R74). -/
theorem nodeLegal_iff {node : Nat} : nodeLegal node = true ↔ node ≤ 127 := by
  simp [nodeLegal, Config.nodeMax]

/-- The arbitration identifier as a number: for legal priorities the three terms do not overlap (R106). -/
theorem headerOf_toNat {p : Prio} (node : BitVec 7) (hmajor : p.major.toNat ≤ 3) (hminor : p.minor.toNat ≤ 3) :
    (headerOf p node).toNat = p.major.toNat * 512 + p.minor.toNat * 128 + node.toNat := by
  have hn := node.isLt
  simp only [headerOf, BitVec.toNat_or, BitVec.toNat_shiftLeft, BitVec.toNat_setWidth]
  rw [Nat.mod_eq_of_lt (show p.major.toNat < 2 ^ 11 by omega), Nat.mod_eq_of_lt (show p.minor.toNat < 2 ^ 11 by omega),
    Nat.mod_eq_of_lt (show node.toNat < 2 ^ 11 by omega), Nat.shiftLeft_eq, Nat.shiftLeft_eq, Nat.mod_eq_of_lt (by omega),
    Nat.mod_eq_of_lt (by omega)]
  have upper : p.major.toNat * 2 ^ 9 ||| p.minor.toNat * 2 ^ 7 = p.major.toNat * 2 ^ 9 + p.minor.toNat * 2 ^ 7 := by
    rw [Nat.mul_comm p.major.toNat]
    exact (Nat.two_pow_add_eq_or_of_lt (i := 9) (by omega) p.major.toNat).symm
  have lower := Nat.two_pow_add_eq_or_of_lt (i := 7) hn (p.major.toNat * 4 + p.minor.toNat)
  rw [show 2 ^ 7 * (p.major.toNat * 4 + p.minor.toNat) = p.major.toNat * 2 ^ 9 + p.minor.toNat * 2 ^ 7 by ring] at lower
  rw [upper, ← lower]
  omega

/-- The bits of joined byte lanes (R51). -/
theorem joinLanes_getLsbD (bs : List Byte) (i : Nat) (hi : i < 64) :
    (joinLanes bs).getLsbD i = (bs[i / 8]?.getD 0).getLsbD (i % 8) := by
  induction bs generalizing i with
  | nil => simp [joinLanes]
  | cons b bs ih =>
    simp only [joinLanes, BitVec.getLsbD_or, BitVec.getLsbD_shiftLeft, BitVec.getLsbD_setWidth]
    by_cases h : i < 8
    · simp [h, hi, Nat.div_eq_of_lt h, Nat.mod_eq_of_lt h]
    · obtain ⟨j, rfl⟩ : ∃ j, i = j + 8 := ⟨i - 8, by omega⟩
      rw [show (j + 8) / 8 = j / 8 + 1 by omega, show (j + 8) % 8 = j % 8 by omega]
      simp [hi, ih j (by omega)]

/-- Bytes joined into lanes split back into the bytes (R51). -/
theorem splitLanes_joinLanes (bs : List Byte) (h : bs.length ≤ 8) : splitLanes bs.length (joinLanes bs) = bs := by
  apply List.ext_getElem
  · simp [splitLanes]
  · intro i _ hi
    simp only [splitLanes, List.getElem_map, List.getElem_range]
    apply BitVec.eq_of_getLsbD_eq
    intro k hk
    rw [BitVec.getLsbD_extractLsb', joinLanes_getLsbD _ _ (by omega), show (8 * i + k) / 8 = i by omega,
      show (8 * i + k) % 8 = k by omega]
    simp [hk, hi]

/-- How many bytes a split gives (R77). -/
@[simp] theorem splitLanes_length (n : Nat) (data : BitVec 64) : (splitLanes n data).length = n := by
  simp [splitLanes]

/-- The bits of a response word (R80). -/
theorem rspWord_getLsbD (r : Response) (i : Nat) :
    (rspWord r).getLsbD i =
      if i < 4 then (codeBits r.code).getLsbD i else if i < 5 then r.flag else if i < 6 then r.diag else if i < 8 then false
      else r.w.getLsbD (i - 8) := by
  unfold rspWord
  repeat rw [BitVec.getLsbD_append]
  simp only [BitVec.getLsbD_ofBool]
  grind (splits := 20)

/-- The increment adds one and saturates (R162). -/
theorem inc_toNat (c : Word32) : (inc c).toNat = min (c.toNat + 1) (2 ^ 32 - 1) := by
  have hc := c.isLt
  unfold inc
  split
  · rename_i h; subst h; simp
  · rename_i h
    have : c.toNat ≠ 2 ^ 32 - 1 := fun e => h (BitVec.eq_of_toNat_eq (by simpa using e))
    rw [BitVec.toNat_add, show (1 : Word32).toNat = 1 from rfl, Nat.mod_eq_of_lt (by omega)]
    omega

end Machine

end Sys2Proof
end

