-- ==== Sys2Proof/Laws/State.lean ====
section
/-! SUPPORT. One lemma per field for each shared update of the state, and how an adapter is read back after one. -/

namespace Sys2Proof.Machine

/-! `setAdapter` -/

@[simp] theorem setAdapter_mode (p : Port) (a : Adapter) (s : State) : (setAdapter p a s).mode = s.mode := rfl
@[simp] theorem setAdapter_port (p : Port) (a : Adapter) (s : State) : (setAdapter p a s).port = s.port := rfl
@[simp] theorem setAdapter_rxcap (p : Port) (a : Adapter) (s : State) : (setAdapter p a s).rxcap = s.rxcap := rfl
@[simp] theorem setAdapter_txcap (p : Port) (a : Adapter) (s : State) : (setAdapter p a s).txcap = s.txcap := rfl
@[simp] theorem setAdapter_poll (p : Port) (a : Adapter) (s : State) : (setAdapter p a s).poll = s.poll := rfl
@[simp] theorem setAdapter_sent (p : Port) (a : Adapter) (s : State) : (setAdapter p a s).sent = s.sent := rfl
@[simp] theorem setAdapter_received (p : Port) (a : Adapter) (s : State) : (setAdapter p a s).received = s.received := rfl
@[simp] theorem setAdapter_adp (p : Port) (a : Adapter) (s : State) : (setAdapter p a s).adp = s.adp.set p a := rfl
@[simp] theorem setAdapter_env (p : Port) (a : Adapter) (s : State) : (setAdapter p a s).env = s.env := rfl
@[simp] theorem setAdapter_pending (p : Port) (a : Adapter) (s : State) : (setAdapter p a s).pending = s.pending := rfl
@[simp] theorem setAdapter_obs (p : Port) (a : Adapter) (s : State) : (setAdapter p a s).obs = s.obs := rfl

/-! `showCall` -/

@[simp] theorem showCall_mode (p : Port) (c : Call) (s : State) : (showCall p c s).mode = s.mode := rfl
@[simp] theorem showCall_port (p : Port) (c : Call) (s : State) : (showCall p c s).port = s.port := rfl
@[simp] theorem showCall_rxcap (p : Port) (c : Call) (s : State) : (showCall p c s).rxcap = s.rxcap := rfl
@[simp] theorem showCall_txcap (p : Port) (c : Call) (s : State) : (showCall p c s).txcap = s.txcap := rfl
@[simp] theorem showCall_poll (p : Port) (c : Call) (s : State) : (showCall p c s).poll = s.poll := rfl
@[simp] theorem showCall_sent (p : Port) (c : Call) (s : State) : (showCall p c s).sent = s.sent := rfl
@[simp] theorem showCall_received (p : Port) (c : Call) (s : State) : (showCall p c s).received = s.received := rfl
@[simp] theorem showCall_adp (p : Port) (c : Call) (s : State) : (showCall p c s).adp = s.adp := rfl
@[simp] theorem showCall_env (p : Port) (c : Call) (s : State) : (showCall p c s).env = s.env := rfl
@[simp] theorem showCall_pending (p : Port) (c : Call) (s : State) : (showCall p c s).pending = s.pending := rfl
@[simp] theorem showCall_obs (p : Port) (c : Call) (s : State) : (showCall p c s).obs = s.obs ++ [.call p c] := rfl

/-! `respond` -/

@[simp] theorem respond_mode (r : Response) (s : State) : (respond r s).mode = s.mode := rfl
@[simp] theorem respond_port (r : Response) (s : State) : (respond r s).port = s.port := rfl
@[simp] theorem respond_rxcap (r : Response) (s : State) : (respond r s).rxcap = s.rxcap := rfl
@[simp] theorem respond_txcap (r : Response) (s : State) : (respond r s).txcap = s.txcap := rfl
@[simp] theorem respond_poll (r : Response) (s : State) : (respond r s).poll = s.poll := rfl
@[simp] theorem respond_sent (r : Response) (s : State) : (respond r s).sent = s.sent := rfl
@[simp] theorem respond_received (r : Response) (s : State) : (respond r s).received = s.received := rfl
@[simp] theorem respond_adp (r : Response) (s : State) : (respond r s).adp = s.adp := rfl
@[simp] theorem respond_env (r : Response) (s : State) : (respond r s).env = s.env := rfl
@[simp] theorem respond_pending (r : Response) (s : State) : (respond r s).pending = s.pending := rfl
@[simp] theorem respond_obs (r : Response) (s : State) : (respond r s).obs = s.obs ++ [.response r] := rfl

/-! `reject` -/

@[simp] theorem reject_mode (code : Code) (s : State) : (reject code s).mode = s.mode := rfl
@[simp] theorem reject_port (code : Code) (s : State) : (reject code s).port = s.port := rfl
@[simp] theorem reject_rxcap (code : Code) (s : State) : (reject code s).rxcap = s.rxcap := rfl
@[simp] theorem reject_txcap (code : Code) (s : State) : (reject code s).txcap = s.txcap := rfl
@[simp] theorem reject_poll (code : Code) (s : State) : (reject code s).poll = s.poll := rfl
@[simp] theorem reject_sent (code : Code) (s : State) : (reject code s).sent = s.sent := rfl
@[simp] theorem reject_received (code : Code) (s : State) : (reject code s).received = s.received := rfl
@[simp] theorem reject_adp (code : Code) (s : State) : (reject code s).adp = s.adp := rfl
@[simp] theorem reject_env (code : Code) (s : State) : (reject code s).env = s.env := rfl
@[simp] theorem reject_pending (code : Code) (s : State) : (reject code s).pending = s.pending := rfl
@[simp] theorem reject_obs (code : Code) (s : State) : (reject code s).obs = s.obs ++ [.response (rejectResponse code)] := rfl

/-! `callEnd` -/

@[simp] theorem callEnd_mode (p : Port) (s : State) : (callEnd p s).mode = s.mode := rfl
@[simp] theorem callEnd_port (p : Port) (s : State) : (callEnd p s).port = s.port := rfl
@[simp] theorem callEnd_rxcap (p : Port) (s : State) : (callEnd p s).rxcap = s.rxcap := rfl
@[simp] theorem callEnd_txcap (p : Port) (s : State) : (callEnd p s).txcap = s.txcap := rfl
@[simp] theorem callEnd_poll (p : Port) (s : State) : (callEnd p s).poll = s.poll := rfl
@[simp] theorem callEnd_sent (p : Port) (s : State) : (callEnd p s).sent = s.sent := rfl
@[simp] theorem callEnd_received (p : Port) (s : State) : (callEnd p s).received = s.received := rfl
@[simp] theorem callEnd_adp (p : Port) (s : State) : (callEnd p s).adp = s.adp.set p (adapterEnd (adapterAt s p)) := rfl
@[simp] theorem callEnd_env (p : Port) (s : State) : (callEnd p s).env = s.env := rfl
@[simp] theorem callEnd_pending (p : Port) (s : State) : (callEnd p s).pending = s.pending := rfl
@[simp] theorem callEnd_obs (p : Port) (s : State) : (callEnd p s).obs = s.obs ++ [.call p .endSession] := rfl

/-! `callBegin` -/

@[simp] theorem callBegin_mode (p : Port) (s : State) : (callBegin p s).mode = s.mode := rfl
@[simp] theorem callBegin_port (p : Port) (s : State) : (callBegin p s).port = s.port := rfl
@[simp] theorem callBegin_rxcap (p : Port) (s : State) : (callBegin p s).rxcap = s.rxcap := rfl
@[simp] theorem callBegin_txcap (p : Port) (s : State) : (callBegin p s).txcap = s.txcap := rfl
@[simp] theorem callBegin_poll (p : Port) (s : State) : (callBegin p s).poll = s.poll := rfl
@[simp] theorem callBegin_sent (p : Port) (s : State) : (callBegin p s).sent = s.sent := rfl
@[simp] theorem callBegin_received (p : Port) (s : State) : (callBegin p s).received = s.received := rfl
@[simp] theorem callBegin_adp (p : Port) (s : State) : (callBegin p s).adp = s.adp.set p (adapterBegin s.env.status[p] Config.bitrate s.rxcap s.txcap (adapterAt s p)) := rfl
@[simp] theorem callBegin_env (p : Port) (s : State) : (callBegin p s).env = s.env := rfl
@[simp] theorem callBegin_pending (p : Port) (s : State) : (callBegin p s).pending = s.pending := rfl
@[simp] theorem callBegin_obs (p : Port) (s : State) : (callBegin p s).obs = s.obs ++ [.call p (.begin Config.bitrate s.rxcap s.txcap s.env.status[p])] := rfl

/-! `illegalCommand` -/

@[simp] theorem illegalCommand_mode  (s : State) : (illegalCommand s).mode = s.mode := rfl
@[simp] theorem illegalCommand_port  (s : State) : (illegalCommand s).port = s.port := rfl
@[simp] theorem illegalCommand_rxcap  (s : State) : (illegalCommand s).rxcap = s.rxcap := rfl
@[simp] theorem illegalCommand_txcap  (s : State) : (illegalCommand s).txcap = s.txcap := rfl
@[simp] theorem illegalCommand_poll  (s : State) : (illegalCommand s).poll = s.poll := rfl
@[simp] theorem illegalCommand_sent  (s : State) : (illegalCommand s).sent = s.sent := rfl
@[simp] theorem illegalCommand_received  (s : State) : (illegalCommand s).received = s.received := rfl
@[simp] theorem illegalCommand_adp  (s : State) : (illegalCommand s).adp = s.adp := rfl
@[simp] theorem illegalCommand_env  (s : State) : (illegalCommand s).env = s.env := rfl
@[simp] theorem illegalCommand_pending  (s : State) : (illegalCommand s).pending = s.pending := rfl
@[simp] theorem illegalCommand_obs  (s : State) : (illegalCommand s).obs = s.obs ++ [.response (rejectResponse .illegalCmd)] := rfl

/-! `hardwareReset`: the block's fields are those of `State.reset`, the model's own are kept (R230, R231). -/

@[simp] theorem hardwareReset_mode  (s : State) : (hardwareReset s).mode = State.reset.mode := rfl
@[simp] theorem hardwareReset_port  (s : State) : (hardwareReset s).port = State.reset.port := rfl
@[simp] theorem hardwareReset_rxcap  (s : State) : (hardwareReset s).rxcap = State.reset.rxcap := rfl
@[simp] theorem hardwareReset_txcap  (s : State) : (hardwareReset s).txcap = State.reset.txcap := rfl
@[simp] theorem hardwareReset_poll  (s : State) : (hardwareReset s).poll = State.reset.poll := rfl
@[simp] theorem hardwareReset_sent  (s : State) : (hardwareReset s).sent = State.reset.sent := rfl
@[simp] theorem hardwareReset_received  (s : State) : (hardwareReset s).received = State.reset.received := rfl
@[simp] theorem hardwareReset_adp  (s : State) : (hardwareReset s).adp = State.reset.adp := rfl
@[simp] theorem hardwareReset_env  (s : State) : (hardwareReset s).env = s.env := rfl
@[simp] theorem hardwareReset_pending  (s : State) : (hardwareReset s).pending = s.pending := rfl
@[simp] theorem hardwareReset_obs  (s : State) : (hardwareReset s).obs = s.obs := rfl

/-! `presentCommand` -/

@[simp] theorem presentCommand_mode (w : CmdWord) (s : State) : (presentCommand w s).mode = s.mode := rfl
@[simp] theorem presentCommand_port (w : CmdWord) (s : State) : (presentCommand w s).port = s.port := rfl
@[simp] theorem presentCommand_rxcap (w : CmdWord) (s : State) : (presentCommand w s).rxcap = s.rxcap := rfl
@[simp] theorem presentCommand_txcap (w : CmdWord) (s : State) : (presentCommand w s).txcap = s.txcap := rfl
@[simp] theorem presentCommand_poll (w : CmdWord) (s : State) : (presentCommand w s).poll = s.poll := rfl
@[simp] theorem presentCommand_sent (w : CmdWord) (s : State) : (presentCommand w s).sent = s.sent := rfl
@[simp] theorem presentCommand_received (w : CmdWord) (s : State) : (presentCommand w s).received = s.received := rfl
@[simp] theorem presentCommand_adp (w : CmdWord) (s : State) : (presentCommand w s).adp = s.adp := rfl
@[simp] theorem presentCommand_env (w : CmdWord) (s : State) : (presentCommand w s).env = s.env := rfl
@[simp] theorem presentCommand_pending (w : CmdWord) (s : State) : (presentCommand w s).pending = ⟨s.env, .command w⟩ :: s.pending := rfl
@[simp] theorem presentCommand_obs (w : CmdWord) (s : State) : (presentCommand w s).obs = s.obs := rfl

/-! Reading an adapter back -/

/-- `Adp[p]` is the entry of `adp` at p. -/
theorem adapterAt_eq (s : State) (p : Port) : adapterAt s p = s.adp[p] := rfl

/-- An adapter depends on the adapters alone. -/
theorem adapterAt_congr {s t : State} (h : t.adp = s.adp) (p : Port) : adapterAt t p = adapterAt s p := by
  simp only [adapterAt, h]

/-- Writing `Adp[p]` and reading it back. -/
@[simp] theorem adapterAt_setAdapter_self (p : Port) (a : Adapter) (s : State) : adapterAt (setAdapter p a s) p = a := by
  simp [adapterAt]

/-- Writing `Adp[p]` leaves every other adapter alone. -/
theorem adapterAt_setAdapter_ne {p q : Port} (h : p ≠ q) (a : Adapter) (s : State) :
    adapterAt (setAdapter p a s) q = adapterAt s q := by
  simp [adapterAt, Fin.val_ne_of_ne h]

/-- Reading an adapter after another, or the same, has been written. -/
theorem adapterAt_setAdapter (p q : Port) (a : Adapter) (s : State) :
    adapterAt (setAdapter p a s) q = if p = q then a else adapterAt s q := by
  by_cases h : p = q
  · subst h; simp
  · simp [h, adapterAt_setAdapter_ne h]

/-- Writing back what `Adp[p]` holds changes nothing. -/
@[simp] theorem setAdapter_adapterAt (p : Port) (s : State) : setAdapter p (adapterAt s p) s = s := by
  simp [setAdapter, adapterAt]

/-- Showing a call leaves the adapters alone. -/
@[simp] theorem adapterAt_showCall (p : Port) (c : Call) (s : State) (q : Port) : adapterAt (showCall p c s) q = adapterAt s q := rfl

/-- Responding leaves the adapters alone. -/
@[simp] theorem adapterAt_respond (r : Response) (s : State) (q : Port) : adapterAt (respond r s) q = adapterAt s q := rfl

/-- Rejecting leaves the adapters alone. -/
@[simp] theorem adapterAt_reject (code : Code) (s : State) (q : Port) : adapterAt (reject code s) q = adapterAt s q := rfl

/-- The adapter `callEnd` ends, and the others. -/
theorem adapterAt_callEnd (p q : Port) (s : State) :
    adapterAt (callEnd p s) q = if p = q then adapterEnd (adapterAt s p) else adapterAt s q := by
  simp [callEnd, adapterAt_setAdapter]

/-- The adapter `callBegin` begins, and the others. -/
theorem adapterAt_callBegin (p q : Port) (s : State) :
    adapterAt (callBegin p s) q =
      if p = q then adapterBegin s.env.status[p] Config.bitrate s.rxcap s.txcap (adapterAt s p) else adapterAt s q := by
  simp [callBegin, adapterAt_setAdapter]

/-- After hardware reset every adapter is stopped and empty. -/
@[simp] theorem adapterAt_hardwareReset (s : State) (p : Port) : adapterAt (hardwareReset s) p = Adapter.reset := by
  simp [adapterAt, State.reset]

end Sys2Proof.Machine
end

