-- ==== Sys2Proof/Laws/Ops.lean ====
section
/-! SUPPORT. For each shared operation, once, all it can do. -/

namespace Sys2Proof.Machine

/-- `FifoPush` either appends and accepts, or refuses a full queue and leaves it (R12). -/
theorem fifoPush_cases (q : List Frame) (depth : Byte) (f : Frame) :
    (q.length < depth.toNat ∧ fifoPush q depth f = (q ++ [f], true)) ∨ (depth.toNat ≤ q.length ∧ fifoPush q depth f = (q, false)) := by
  unfold fifoPush
  split
  · exact .inl ⟨‹_›, rfl⟩
  · exact .inr ⟨by omega, rfl⟩

/-- `FifoPop` answers the head and the rest of a non-empty queue (R12). -/
theorem fifoPop_eq_some {q rest : List Frame} {f : Frame} : fifoPop q = some (f, rest) ↔ q = f :: rest := by
  cases q <;> simp [fifoPop]

/-- `FifoPop` answers nothing on the empty queue alone (R12). -/
theorem fifoPop_eq_none {q : List Frame} : fifoPop q = none ↔ q = [] := by
  cases q <;> simp [fifoPop]

/-- A begin that succeeds (R178). -/
theorem adapterBegin_success {st : Word32} (h : st = 0) (br : Word32) (rx tx : Byte) (a : Adapter) :
    adapterBegin st br rx tx a = { started := true, bitrate := br, rxdepth := rx, txdepth := tx, rxq := [], txq := [] } := if_pos h

/-- A begin that succeeds, as simp meets it (R178). -/
@[simp] theorem adapterBegin_zero (br : Word32) (rx tx : Byte) (a : Adapter) :
    adapterBegin 0#32 br rx tx a = { started := true, bitrate := br, rxdepth := rx, txdepth := tx, rxq := [], txq := [] } := rfl

/-- A begin that fails (R178). -/
theorem adapterBegin_fail {st : Word32} (h : st ≠ 0) (br : Word32) (rx tx : Byte) (a : Adapter) :
    adapterBegin st br rx tx a = { a with started := false, rxq := [], txq := [] } := if_neg h

/-- Ending an adapter before beginning it makes no difference to the adapter after (R134, R178, R179). -/
theorem adapterBegin_adapterEnd (st br : Word32) (rx tx : Byte) (a : Adapter) :
    adapterBegin st br rx tx (adapterEnd a) = adapterBegin st br rx tx a := by
  unfold adapterBegin
  split <;> rfl

/-- `available()` (R180). -/
theorem adapterAvailable_iff {a : Adapter} : adapterAvailable a = true ↔ a.started = true ∧ a.rxq ≠ [] := by
  simp [adapterAvailable]

/-- `receive()` answers the oldest frame of a started adapter whose receive FIFO is not empty (R180). -/
theorem adapterReceive_eq_some {a a' : Adapter} {f : Frame} :
    adapterReceive a = some (f, a') ↔ a.started = true ∧ ∃ q, a.rxq = f :: q ∧ a' = { a with rxq := q } := by
  unfold adapterReceive
  cases hs : a.started <;> cases hq : a.rxq <;> simp [adapterAvailable, hs, hq, fifoPop]
  exact fun _ => eq_comm

/-- `receive()` answers nothing exactly where `available()` is false (R173, R180). -/
theorem adapterReceive_eq_none {a : Adapter} : adapterReceive a = none ↔ adapterAvailable a = false := by
  unfold adapterReceive
  cases h : adapterAvailable a
  · simp
  · have := (adapterAvailable_iff.mp h).2
    cases hq : a.rxq with
    | nil => exact absurd hq this
    | cons f q => simp [fifoPop]

/-- `trySend(g)` either appends to a started adapter with room and accepts, or changes nothing and refuses (R180). -/
theorem adapterTrySend_cases (g : Frame) (a : Adapter) :
    (a.started = true ∧ a.txq.length < a.txdepth.toNat ∧ adapterTrySend g a = ({ a with txq := a.txq ++ [g] }, true)) ∨
      ((a.started = false ∨ a.txdepth.toNat ≤ a.txq.length) ∧ adapterTrySend g a = (a, false)) := by
  cases hs : a.started
  · exact .inr ⟨.inl rfl, by simp [adapterTrySend, hs]⟩
  · obtain ⟨hl, hp⟩ | ⟨hl, hp⟩ := fifoPush_cases a.txq a.txdepth g
    · exact .inl ⟨rfl, hl, by simp [adapterTrySend, hs, hp]⟩
    · exact .inr ⟨.inr hl, by unfold adapterTrySend; rw [if_pos hs, hp]⟩

/-- A begun session: ACTIVE with the counters at 0 and the operand stored, or, on a failed begin, the code reported and only the
adapter and an ACTIVE mode changed (R124). -/
theorem beginSession_cases (pollMode : Bool) (s : State) :
    (s.env.status[s.port] = 0 ∧ beginSession pollMode s =
      respond (okResponse true beginPayload)
        { callBegin s.port s with mode := .active, sent := 0, received := 0, poll := pollMode }) ∨
    (s.env.status[s.port] ≠ 0 ∧ beginSession pollMode s =
      respond (initErrorResponse s.env.status[s.port]) { callBegin s.port s with mode := modeAfterFailure s.mode }) := by
  unfold beginSession
  split
  · exact .inl ⟨‹_›, rfl⟩
  · exact .inr ⟨‹_›, rfl⟩

/-! The fields after a session has been begun, or has failed to begin (R124) -/

@[simp] theorem beginSession_mode (pollMode : Bool) (s : State) : (beginSession pollMode s).mode = if s.env.status[s.port] = 0 then .active else modeAfterFailure s.mode := by
  unfold beginSession; split <;> rfl
@[simp] theorem beginSession_port (pollMode : Bool) (s : State) : (beginSession pollMode s).port = s.port := by
  unfold beginSession; split <;> rfl
@[simp] theorem beginSession_rxcap (pollMode : Bool) (s : State) : (beginSession pollMode s).rxcap = s.rxcap := by
  unfold beginSession; split <;> rfl
@[simp] theorem beginSession_txcap (pollMode : Bool) (s : State) : (beginSession pollMode s).txcap = s.txcap := by
  unfold beginSession; split <;> rfl
@[simp] theorem beginSession_poll (pollMode : Bool) (s : State) : (beginSession pollMode s).poll = if s.env.status[s.port] = 0 then pollMode else s.poll := by
  unfold beginSession; split <;> rfl
@[simp] theorem beginSession_sent (pollMode : Bool) (s : State) : (beginSession pollMode s).sent = if s.env.status[s.port] = 0 then 0 else s.sent := by
  unfold beginSession; split <;> rfl
@[simp] theorem beginSession_received (pollMode : Bool) (s : State) : (beginSession pollMode s).received = if s.env.status[s.port] = 0 then 0 else s.received := by
  unfold beginSession; split <;> rfl
@[simp] theorem beginSession_env (pollMode : Bool) (s : State) : (beginSession pollMode s).env = s.env := by
  unfold beginSession; split <;> rfl
@[simp] theorem beginSession_pending (pollMode : Bool) (s : State) : (beginSession pollMode s).pending = s.pending := by
  unfold beginSession; split <;> rfl
@[simp] theorem beginSession_adp (pollMode : Bool) (s : State) :
    (beginSession pollMode s).adp =
      s.adp.set s.port (adapterBegin s.env.status[s.port] Config.bitrate s.rxcap s.txcap (adapterAt s s.port)) := by
  unfold beginSession; split <;> rfl
@[simp] theorem beginSession_obs (pollMode : Bool) (s : State) :
    (beginSession pollMode s).obs =
      s.obs ++ [.call s.port (.begin Config.bitrate s.rxcap s.txcap s.env.status[s.port])] ++
        [.response (if s.env.status[s.port] = 0 then okResponse true beginPayload else initErrorResponse s.env.status[s.port])] := by
  unfold beginSession; split <;> rfl

/-- The fields after the bound port has been released for SETPORT (R138): the adapter is ended in ACTIVE alone. -/
theorem releasePort_cases (s : State) :
    (s.mode = .active ∧ releasePort s = callEnd s.port s) ∨ (s.mode ≠ .active ∧ releasePort s = s) := by
  unfold releasePort
  cases h : s.mode <;> simp

/-- A port's ordinal names it, and no other ordinal does (R25, R74). -/
@[simp] theorem portOf_portOrdinal (p : Port) : portOf (portOrdinal p) = some p := by
  revert p; decide

/-- An ordinal names a port exactly when it is in 1..NPORTS (R138). -/
theorem portOf_eq_some {n : Byte} {p : Port} : portOf n = some p ↔ n.toNat = p.val + 1 := by
  have hp : p.val < Config.nports := p.isLt
  unfold portOf
  split
  · rw [Option.some.injEq, Fin.ext_iff]
    show n.toNat - 1 = p.val ↔ _
    omega
  · simp only [reduceCtorEq, false_iff]
    omega

/-- An ordinal names no port exactly when it is 0 or above NPORTS (R138 corner (a)). -/
theorem portOf_eq_none {n : Byte} : portOf n = none ↔ n.toNat = 0 ∨ Config.nports < n.toNat := by
  unfold portOf
  split <;> simp only [reduceCtorEq, false_iff, true_iff] <;> omega

/-- What RECEIVE would return (R129). -/
theorem pendingFrame_eq_some {s : State} {f : Frame} {a : Adapter} :
    pendingFrame s = some (f, a) ↔ s.mode = .active ∧ (adapterAt s s.port).started = true ∧
      ∃ q, (adapterAt s s.port).rxq = f :: q ∧ a = { adapterAt s s.port with rxq := q } := by
  unfold pendingFrame
  cases s.mode <;> simp [adapterReceive_eq_some]

/-- Where RECEIVE is undefined (R129, R220). -/
theorem pendingFrame_eq_none {s : State} :
    pendingFrame s = none ↔ s.mode ≠ .active ∨ adapterAvailable (adapterAt s s.port) = false := by
  unfold pendingFrame
  cases s.mode <;> simp [adapterReceive_eq_none]

/-- SEND is accepted, or refused by a full or stopped adapter, or rejected before the adapter is asked (R131). -/
theorem execSend_cases (prio : Option Prio) (rtr ext : Bool) (len : BitVec 4) (id : CanId) (data : BitVec 64) (s : State) :
    (∃ code, sendError prio len id s.mode = some code ∧ execSend prio rtr ext len id data s = .next (reject code s)) ∨
    (sendError prio len id s.mode = none ∧ (adapterAt s s.port).started = true ∧
      (adapterAt s s.port).txq.length < (adapterAt s s.port).txdepth.toNat ∧
      execSend prio rtr ext len id data s = .next (respond (okResponse true 0)
        { showCall s.port (.trySend (outgoingFrame prio rtr ext len id data) true)
            (setAdapter s.port
              { adapterAt s s.port with txq := (adapterAt s s.port).txq ++ [outgoingFrame prio rtr ext len id data] } s) with
          sent := inc s.sent })) ∨
    (sendError prio len id s.mode = none ∧
      ((adapterAt s s.port).started = false ∨ (adapterAt s s.port).txdepth.toNat ≤ (adapterAt s s.port).txq.length) ∧
      execSend prio rtr ext len id data s = .next (reject .sendRejected
        (showCall s.port (.trySend (outgoingFrame prio rtr ext len id data) false)
          (setAdapter s.port (adapterAt s s.port) s)))) := by
  cases he : sendError prio len id s.mode with
  | some code => exact .inl ⟨code, rfl, by simp [execSend, he]⟩
  | none =>
    obtain ⟨hs, hl, ha⟩ | ⟨hl, ha⟩ := adapterTrySend_cases (outgoingFrame prio rtr ext len id data) (adapterAt s s.port)
    · exact .inr (.inl ⟨rfl, hs, hl, by simp [execSend, he, ha]⟩)
    · exact .inr (.inr ⟨rfl, hl, by simp [execSend, he, ha]⟩)

/-- A bus arrival is not taken, or malformed, or queued, or lost (R181). -/
theorem busRx_cases (p : Port) (f : Frame) (s : State) :
    ((adapterAt s p).started = false ∧ busRx p f s = .next s) ∨
    ((adapterAt s p).started = true ∧ f.wf = false ∧ busRx p f s = .fault .malformedArrival) ∨
    ((adapterAt s p).started = true ∧ f.wf = true ∧ (adapterAt s p).rxq.length < (adapterAt s p).rxdepth.toNat ∧
      busRx p f s = .next (setAdapter p { adapterAt s p with rxq := (adapterAt s p).rxq ++ [f] } s)) ∨
    ((adapterAt s p).started = true ∧ f.wf = true ∧ (adapterAt s p).rxdepth.toNat ≤ (adapterAt s p).rxq.length ∧
      busRx p f s = .next (setAdapter p (adapterAt s p) s)) := by
  cases hs : (adapterAt s p).started
  · exact .inl ⟨rfl, by simp [busRx, hs]⟩
  · cases hw : f.wf
    · exact .inr (.inl ⟨rfl, rfl, by simp [busRx, hs, hw]⟩)
    · obtain ⟨hl, hp⟩ | ⟨hl, hp⟩ := fifoPush_cases (adapterAt s p).rxq (adapterAt s p).rxdepth f
      · exact .inr (.inr (.inl ⟨rfl, rfl, hl, by simp [busRx, hs, hw, hp]⟩))
      · exact .inr (.inr (.inr ⟨rfl, rfl, hl, by unfold busRx; rw [if_pos hs, if_pos hw, hp]⟩))

/-- A bus departure is not taken, or the oldest frame leaves and is shown (R183). -/
theorem busTx_cases (p : Port) (s : State) :
    (((adapterAt s p).started = false ∨ (adapterAt s p).txq = []) ∧ busTx p s = .next s) ∨
    (∃ g q, (adapterAt s p).started = true ∧ (adapterAt s p).txq = g :: q ∧
      busTx p s = .next { setAdapter p { adapterAt s p with txq := q } s with obs := s.obs ++ [.emitted p g] }) := by
  cases hs : (adapterAt s p).started
  · exact .inl ⟨.inl rfl, by simp [busTx, hs]⟩
  · cases hq : (adapterAt s p).txq with
    | nil => exact .inl ⟨.inr rfl, by simp [busTx, hs, hq, fifoPop]⟩
    | cons g q => exact .inr ⟨g, q, rfl, rfl, by simp [busTx, hs, hq, fifoPop]⟩

/-- The step with nothing to come (R243). -/
theorem nextStep_nil {s : State} (h : s.pending = []) : nextStep s = .next s := by
  simp [nextStep, h]

/-- The step takes the agent's step at the head, with its inputs (R58). -/
theorem nextStep_cons {s : State} {x : Presented} {rest : List Presented} (h : s.pending = x :: rest) :
    nextStep s = agentStep x.agent { s with env := x.env, pending := rest } := by
  simp [nextStep, h]

end Sys2Proof.Machine
end

