-- ==== Sys2Proof/Laws/Exec.lean ====
section
/-! SUPPORT. All a command can do, and all an agent's step can do, said once: `exec_ran` and `agentStep_stepped`. -/

namespace Sys2Proof.Machine

/-- SEND gets past its checks exactly when the length, the priority and the node identifier are legal and the session is ACTIVE
(R131). -/
theorem sendError_eq_none {prio : Option Prio} {len : BitVec 4} {id : CanId} {mode : Mode} :
    sendError prio len id mode = none ↔
      len.toNat ≤ 8 ∧ priorityLegal (priorityPair prio) = true ∧ id.toNat ≤ 127 ∧ mode = .active := by
  rw [← nodeLegal_iff]
  unfold sendError headerError sendNode
  by_cases hl : len.toNat ≤ 8
  · have : ¬ len.toNat > Config.lenMax := by simpa using hl
    rw [if_neg this]
    cases priorityLegal (priorityPair prio) <;> cases nodeLegal id.toNat <;> cases mode <;> simp [hl]
  · have : len.toNat > Config.lenMax := by simpa using hl
    rw [if_pos this]
    simp [hl]

/-- SEND_REJECTED is no operand or mode error (R81, R131). -/
theorem sendError_ne_sendRejected (prio : Option Prio) (len : BitVec 4) (id : CanId) (mode : Mode) :
    sendError prio len id mode ≠ some .sendRejected := by
  unfold sendError headerError
  split
  · simp
  · cases priorityLegal (priorityPair prio) <;> cases nodeLegal (sendNode id).toNat <;> cases mode <;> simp

/-- SEND_REJECTED is no codec error (R81, R102). -/
theorem headerError_ne_sendRejected (p : Prio) (node : Nat) : headerError p node ≠ some .sendRejected := by
  unfold headerError
  cases priorityLegal p <;> cases nodeLegal node <;> simp

/-- The commands that can answer without touching anything. -/
def answersAlone : Instr → Bool
  | .encode _ _ => true
  | .decode _ => true
  | .begin _ => false
  | .available => true
  | .receive => false
  | .send _ _ _ _ _ _ => true
  | .reset => false
  | .setNumBuffers _ _ => false
  | .setPort _ => false
  | .status => false

/-- What running a command from `s` can lead to, one constructor per shape of next state. -/
inductive Ran (s : State) : Instr → State → Prop where
  /-- A pure answer or a rejection: nothing but the response (R102, R103, R127, R131, R210). -/
  | answers {i : Instr} {r : Response} (hi : answersAlone i = true) (hr : r.code = .ok ∨ r = rejectResponse r.code)
      (hs : r.code ≠ .sendRejected) : Ran s i (respond r s)
  /-- AVAILABLE in ACTIVE (R127). -/
  | available (hm : s.mode = .active) :
      Ran s .available (respond (okResponse (adapterAvailable (adapterAt s s.port)) 0)
        (showCall s.port (.available (adapterAvailable (adapterAt s s.port))) s))
  /-- SEND refused by the adapter (R131, R203). -/
  | sendRefused {prio : Option Prio} {rtr ext : Bool} {len : BitVec 4} {id : CanId} {data : BitVec 64}
      (hfull : (adapterAt s s.port).started = false ∨ (adapterAt s s.port).txdepth.toNat ≤ (adapterAt s s.port).txq.length) :
      Ran s (.send prio rtr ext len id data)
        (reject .sendRejected (showCall s.port (.trySend (outgoingFrame prio rtr ext len id data) false) s))
  /-- SEND accepted (R131). -/
  | sendAccepted {prio : Option Prio} {rtr ext : Bool} {len : BitVec 4} {id : CanId} {data : BitVec 64}
      (hlen : len.toNat ≤ 8) (hprio : priorityLegal (priorityPair prio) = true) (hid : id.toNat ≤ 127) (hm : s.mode = .active)
      (hs : (adapterAt s s.port).started = true)
      (hroom : (adapterAt s s.port).txq.length < (adapterAt s s.port).txdepth.toNat) :
      Ran s (.send prio rtr ext len id data) (respond (okResponse true 0)
        { showCall s.port (.trySend (outgoingFrame prio rtr ext len id data) true)
            (setAdapter s.port
              { adapterAt s s.port with txq := (adapterAt s s.port).txq ++ [outgoingFrame prio rtr ext len id data] } s) with
          sent := inc s.sent })
  /-- RECEIVE of the oldest frame (R129). -/
  | receives {f : Frame} {q : List Frame} (hm : s.mode = .active) (hs : (adapterAt s s.port).started = true)
      (hq : (adapterAt s s.port).rxq = f :: q) :
      Ran s .receive (respond (okResponse true (packFrame f))
        { showCall s.port (.receive f) (setAdapter s.port { adapterAt s s.port with rxq := q } s) with
          received := inc s.received })
  /-- SETNUMBUFFERS (R136). -/
  | setNumBuffers (rx tx : Byte) :
      Ran s (.setNumBuffers rx tx) (respond (okResponse true 0) { s with rxcap := rx, txcap := tx })
  /-- SETPORT, with a legal ordinal or falling back (R138). -/
  | setPort {n : Byte} {p : Port} {r : Response} (hr : r = okResponse true 0 ∨ r = portWarningResponse) :
      Ran s (.setPort n) (respond r { releasePort s with port := p, mode := .idle })
  /-- STATUS (R140). -/
  | status :
      Ran s .status (respond
        (okResponse true (statusPayload s.sent s.received s.env.rxErr[s.port] s.env.txErr[s.port]))
        (showCall s.port (.transmitErrorCounter s.env.txErr[s.port])
          (showCall s.port (.receiveErrorCounter s.env.rxErr[s.port]) s)))
  /-- BEGIN (R124); its two outcomes are `beginSession_cases`. -/
  | begin (pollMode : Bool) : Ran s (.begin pollMode) (beginSession pollMode s)
  /-- RESET (R134). -/
  | reset : Ran s .reset (beginSession s.poll (callEnd s.port s))

/-- If a command answers a next state, it ran as `Ran` says. -/
theorem exec_ran {i : Instr} {s t : State} (h : exec i s = .next t) : Ran s i t := by
  cases i with
  | encode prio node =>
    simp only [exec, execEncode] at h
    split at h <;> cases h
    · rename_i code he
      exact .answers rfl (.inr rfl) fun e => headerError_ne_sendRejected _ _ (he.trans (congrArg some e))
    · exact .answers rfl (.inl rfl) (by simp [okResponse])
  | decode id =>
    simp only [exec, execDecode] at h
    split at h <;> cases h
    · exact .answers rfl (.inr rfl) (by simp [rejectResponse])
    · exact .answers rfl (.inl rfl) (by simp [okResponse])
  | begin pollMode => cases h; exact .begin pollMode
  | available =>
    simp only [exec, execAvailable] at h
    split at h <;> cases h
    · exact .available ‹_›
    · exact .answers rfl (.inl rfl) (by simp [okResponse])
    · exact .answers rfl (.inl rfl) (by simp [okResponse])
  | receive =>
    simp only [exec, execReceive] at h
    split at h
    · rename_i f a hp
      cases h
      obtain ⟨hm, hs, q, hq, rfl⟩ := pendingFrame_eq_some.mp hp
      exact .receives hm hs hq
    · cases h
  | send prio rtr ext len id data =>
    obtain ⟨code, he, e⟩ | ⟨he, hs, hroom, e⟩ | ⟨_, hfull, e⟩ := execSend_cases prio rtr ext len id data s
    · cases e.symm.trans h
      exact .answers rfl (.inr rfl) fun h' => sendError_ne_sendRejected _ _ _ _ (he.trans (congrArg some h'))
    · cases e.symm.trans h
      obtain ⟨hlen, hprio, hid, hm⟩ := sendError_eq_none.mp he
      exact .sendAccepted hlen hprio hid hm hs hroom
    · rw [setAdapter_adapterAt] at e
      cases e.symm.trans h
      exact .sendRefused hfull
  | reset => cases h; exact .reset
  | setNumBuffers rx tx => cases h; exact .setNumBuffers rx tx
  | setPort n =>
    simp only [exec, execSetPort] at h
    split at h <;> cases h
    · exact .setPort (.inl rfl)
    · exact .setPort (.inr rfl)
  | status => cases h; exact .status

/-- What an agent's step from `s` can lead to. -/
inductive Stepped (s : State) : AgentStep → State → Prop where
  /-- A command that ran. -/
  | command {w : CmdWord} {i : Instr} {t : State} (hd : decode w = .instr i) (hr : Ran s i t) : Stepped s (.command w) t
  /-- A reserved opcode (R83). -/
  | reserved {w : CmdWord} {op : BitVec 4} (hd : decode w = .reservedOpcode op) : Stepped s (.command w) (illegalCommand s)
  /-- A bus step that was not taken, or an arrival lost at a full FIFO (R181, R183). -/
  | busStays {a : AgentStep}
      (ha : (∃ p f, a = .busRx p f ∧
          ((adapterAt s p).started = false ∨ (adapterAt s p).rxdepth.toNat ≤ (adapterAt s p).rxq.length)) ∨
        ∃ p, a = .busTx p ∧ ((adapterAt s p).started = false ∨ (adapterAt s p).txq = [])) : Stepped s a s
  /-- An arrival queued (R181). -/
  | arrives {p : Port} {f : Frame} (hs : (adapterAt s p).started = true) (hf : f.wf = true)
      (hroom : (adapterAt s p).rxq.length < (adapterAt s p).rxdepth.toNat) :
      Stepped s (.busRx p f) (setAdapter p { adapterAt s p with rxq := (adapterAt s p).rxq ++ [f] } s)
  /-- A departure (R183). -/
  | departs {p : Port} {g : Frame} {q : List Frame} (hs : (adapterAt s p).started = true) (hq : (adapterAt s p).txq = g :: q) :
      Stepped s (.busTx p) { setAdapter p { adapterAt s p with txq := q } s with obs := s.obs ++ [.emitted p g] }
  /-- Hardware reset (R230). -/
  | resets : Stepped s .hardwareReset (hardwareReset s)

/-- If an agent's step answers a next state, it went as `Stepped` says. -/
theorem agentStep_stepped {a : AgentStep} {s t : State} (h : agentStep a s = .next t) : Stepped s a t := by
  cases a with
  | command w =>
    simp only [agentStep, runCommand] at h
    split at h
    · exact .command ‹_› (exec_ran h)
    · cases h; exact .reserved ‹_›
  | busRx p f =>
    simp only [agentStep] at h
    obtain ⟨hs, e⟩ | ⟨_, _, e⟩ | ⟨hs, hf, hroom, e⟩ | ⟨_, _, hfull, e⟩ := busRx_cases p f s
    · cases e.symm.trans h; exact .busStays (.inl ⟨p, f, rfl, .inl hs⟩)
    · cases e.symm.trans h
    · cases e.symm.trans h; exact .arrives hs hf hroom
    · rw [setAdapter_adapterAt] at e
      cases e.symm.trans h; exact .busStays (.inl ⟨p, f, rfl, .inr hfull⟩)
  | busTx p =>
    simp only [agentStep] at h
    obtain ⟨hstay, e⟩ | ⟨g, q, hs, hq, e⟩ := busTx_cases p s
    · cases e.symm.trans h; exact .busStays (.inr ⟨p, rfl, hstay⟩)
    · cases e.symm.trans h; exact .departs hs hq
  | hardwareReset => cases h; exact .resets

/-- The machine's step is the idle step or an agent's step with its inputs latched (R58, R243). -/
theorem step_cases {s t : State} (h : step s = .next t) :
    (s.pending = [] ∧ t = s) ∨
      ∃ x rest, s.pending = x :: rest ∧ Stepped { s with env := x.env, pending := rest } x.agent t := by
  unfold step at h
  cases hp : s.pending with
  | nil => rw [nextStep_nil hp] at h; cases h; exact .inl ⟨rfl, rfl⟩
  | cons x rest => rw [nextStep_cons hp] at h; exact .inr ⟨x, rest, rfl, agentStep_stepped h⟩

end Sys2Proof.Machine
end

