-- ==== Sys2Proof/Laws/PerInstr.lean ====
section
/-! SUPPORT. A fact about every command as syntax, one lemma per constructor: its word carries its opcode (30_encoding.md R79). -/

namespace Sys2Proof.Laws.OpcodeOfWord

/-- `CMD[3:0]` of a command's word is the command's opcode. -/
def Statement (i : Instr) : Prop := cmdOp (Sys2Proof.encode i) = opcode i

theorem encode (prio : Option Prio) (node : Byte) : Statement (.encode prio node) := cmdOp_packCmd _
theorem decode (id : CanId) : Statement (.decode id) := cmdOp_packCmd _
theorem begin (pollMode : Bool) : Statement (.begin pollMode) := cmdOp_packCmd _
theorem available : Statement .available := cmdOp_packCmd _
theorem receive : Statement .receive := cmdOp_packCmd _
theorem send (prio : Option Prio) (rtr ext : Bool) (len : BitVec 4) (id : CanId) (data : BitVec 64) :
    Statement (.send prio rtr ext len id data) := cmdOp_packCmd _
theorem reset : Statement .reset := cmdOp_packCmd _
theorem setNumBuffers (rx tx : Byte) : Statement (.setNumBuffers rx tx) := cmdOp_packCmd _
theorem setPort (n : Byte) : Statement (.setPort n) := cmdOp_packCmd _
theorem status : Statement .status := cmdOp_packCmd _

end Sys2Proof.Laws.OpcodeOfWord
end

