-- ==== Sys2Proof/Tests/Slice0.lean ====
section
/-! SUPPORT. Tests: words and responses from 95_test_vectors.md (its T and P numbers are cited), and for every statement with
hypotheses a concrete case that meets them. -/

namespace Sys2Proof.Tests

open Sys2Proof.Machine Sys2Proof.Safety

/-! ## Helpers -/

/-- An ACTIVE session on port 1 as BEGIN leaves it (T50), with these frames queued. -/
def live (rxq txq : List Frame) : State :=
  { State.reset with
    mode := .active
    adp := State.reset.adp.set 0 { started := true, bitrate := 125000, rxdepth := 32, txdepth := 16, rxq := rxq, txq := txq } }

/-- The state with the status code of port 1's adapter. -/
def withStatus (st : Word32) (s : State) : State := { s with env := { s.env with status := s.env.status.set 0 st } }

/-- The frame of the loopback property (S6, T34). -/
def sample : Frame := { id := 300, len := 3, data := [1, 2, 3], rtr := false, ext := false }

/-- A frame that is not well formed: its length is 9. -/
def overlong : Frame := { id := 0, len := 9, data := [], rtr := false, ext := false }

/-- The machine's next step on this command word answers this response word, in a state with this property. -/
def answers (w : Nat) (s : State) (rsp : RspWord) (want : State → Bool) : Bool :=
  match step (s.withFetchWord 128 w) with
  | .next t => (lastResponse (.next t)).map rspWord == some rsp && want t
  | .fault _ => false
  | .refused _ => false

/-- This outcome is a next state with this property. -/
def goesTo (o : Host.Outcome State Fault Refusal) (want : State → Bool) : Bool :=
  match o with
  | .next t => want t
  | .fault _ => false
  | .refused _ => false

/-- A state apart from the model's own fields. -/
def block (s : State) : State := { s with env := Env.zero, pending := [], obs := [] }

/-! ## Well-formedness -/

/-- SEND reads no lane at or beyond `len`, so a canonical one holds nothing there (R73, R77). -/
theorem test_wf_refuses_lane_beyond_len : (Instr.send none false false 1 0 0x100).wf = false := by decide

/-- With `len > 8` no data is taken (R77). -/
theorem test_wf_refuses_data_of_overlong_send : (Instr.send none false false 9 0 1).wf = false := by decide

theorem test_wf_accepts_full_lanes : (Instr.send none false false 8 0 0xFF00000000000000).wf = true := by decide

/-! ## Decoding: words of the spec, and words written from its field positions (R71) -/

theorem test_decode_encode : decode 0x00000000000000000000000010502010 = .instr (.encode (some ⟨1, 2⟩) 5) := by decide
theorem test_decode_encode_ignores_priority : decode 0x00000000000000000000000000709C80 = .instr (.encode none 7) := by decide
theorem test_decode_decode : decode 0x00000000000000000000096000000001 = .instr (.decode 300) := by decide
theorem test_decode_begin : decode 0x00000000000000000000000000000012 = .instr (.begin true) := by decide
theorem test_decode_available : decode 0x00000000000000000000000000000003 = .instr .available := by decide
theorem test_decode_receive : decode 0x00000000000000000000000000000004 = .instr .receive := by decide
theorem test_decode_send :
    decode 0x0807060504030201000003FC50003035 =
      .instr (.send (some ⟨3, 3⟩) false true 8 127 0x0807060504030201) := by decide
theorem test_decode_send_drops_lanes :
    decode 0xFFFFFFFFFF0302010000016180000005 = .instr (.send none false false 3 44 0x030201) := by decide
theorem test_decode_reset : decode 0x00000000000000000000000000000006 = .instr .reset := by decide
theorem test_decode_setNumBuffers : decode 0x00000000000000000000000000002047 = .instr (.setNumBuffers 4 2) := by decide
theorem test_decode_setPort : decode 0x00000000000000000000000000000078 = .instr (.setPort 7) := by decide
theorem test_decode_status : decode 0x00000000000000000000000000000009 = .instr .status := by decide
theorem test_decode_reserved : decode 0x0000000000000000000000000000000A = .reservedOpcode 10 := by decide
theorem test_encode_send :
    encode (.send (some ⟨2, 3⟩) false false 3 44 0x030201) = 0x00000000000302010000016190003025 := by decide
theorem test_decodeTableWord : decodeTableWord 128 0x2047 = some (.setNumBuffers 4 2) := by decide
theorem test_decodeTableWord_reserved : decodeTableWord 128 0xB = none := by decide

/-! ## One step of each command -/

/-- T4. -/
theorem test_encode_highest : answers 0x17F03030 State.reset 0x000000000000000000003FF80000000010 (fun t => block t == State.reset) := by
  decide
/-- T8: both causes, the priority reported. -/
theorem test_encode_two_causes : answers 0x1C800040 State.reset 0x5 (fun t => block t == State.reset) := by decide
/-- T13. -/
theorem test_decode_splits : answers 0x00002D6000000001 (live [] []) 0x00000000000000000000000002C0302010
    (fun t => block t == live [] []) := by decide
/-- T14. -/
theorem test_decode_too_large : answers 0x400000000001 State.reset 0x7 (fun t => block t == State.reset) := by decide
/-- T50. -/
theorem test_begin : answers 0x2 State.reset 0x10 (fun t => block t == live [] []) := by decide
/-- T54. -/
theorem test_begin_fails_when_active : answers 0x2 (withStatus 9 { live [sample] [sample] with sent := 3, received := 2 }) 0x901
    (fun t => t.mode == .idle && !t.adp[0].started && t.adp[0].txq == [] && t.adp[0].rxq == [] && t.sent == 3 && t.received == 2) := by
  decide
/-- T32. -/
theorem test_available_unbound : answers 0x3 State.reset 0x0 (fun t => block t == State.reset) := by decide
/-- T34. -/
theorem test_available_queued : answers 0x3 (live [sample] []) 0x10 (fun t => block t == live [sample] []) := by decide
/-- T34. -/
theorem test_receive : answers 0x4 (live [sample] []) 0x0000000000030201000009618000000010
    (fun t => block t == { live [] [] with received := 1 }) := by decide
/-- T35, T36: undefined, so the run goes wrong. -/
theorem test_receive_undefined :
    step ((live [] []).withFetchWord 128 4) = .fault .receiveUndefined ∧
      step (State.reset.withFetchWord 128 4) = .fault .receiveUndefined := ⟨rfl, rfl⟩
/-- T20. -/
theorem test_send : answers 0x00000000000302010000016180000005 (live [] []) 0x10
    (fun t => block t == { live [] [{ sample with id := 1452 }] with sent := 1 }) := by decide
/-- T30: the counter saturates. -/
theorem test_send_saturates : answers 0x00000000000000000000000800000005 { live [] [] with sent := 0xFFFFFFFF } 0x10
    (fun t => t.sent == 0xFFFFFFFF && t.adp[0].txq == [⟨1409, 0, [], false, false⟩]) := by decide
/-- T55. -/
theorem test_reset : answers 0x6 { live [sample] [] with sent := 3, received := 2 } 0x10 (fun t => block t == live [] []) := by decide
/-- T56. -/
theorem test_reset_fails : answers 0x6 (withStatus 1 { live [sample] [] with sent := 3, received := 2 }) 0x101
    (fun t => t.mode == .idle && !t.adp[0].started && t.adp[0].rxq == [] && t.sent == 3 && t.received == 2) := by decide
/-- T59. -/
theorem test_setNumBuffers : answers 0x2047 (live [] []) 0x10 (fun t => block t == { live [] [] with rxcap := 4, txcap := 2 }) := by
  decide
/-- T62. -/
theorem test_setPort_falls_back : answers 0x78 State.reset 0x32 (fun t => block t == { State.reset with mode := .idle }) := by decide
/-- T65: the same port, and the session is torn down. -/
theorem test_setPort_same : answers 0x18 { live [sample, sample] [sample] with sent := 5 } 0x10
    (fun t => t.mode == .idle && t.port == 0 && !t.adp[0].started && t.adp[0].rxq == [] && t.adp[0].txq == [] && t.sent == 5) := by
  decide
/-- T40. -/
theorem test_status : answers 0x9 { live [] [] with sent := 3, received := 2 } 0x0000000000000000000000020000000310
    (fun t => block t == { live [] [] with sent := 3, received := 2 }) := by decide
/-- T40, its text. -/
theorem test_status_text : statusText (snapshot { State.reset with sent := 3, received := 2 }) =
    "CBUS status: messages received = 2, sent = 3, receive errors = 0, transmit errors = 0" := by decide
/-- T81. -/
theorem test_reserved : answers 0xFFFFFFFFFFFFFFFFFFFFFFFFFFFFFFFF (live [] []) 0x9 (fun t => block t == live [] []) := by decide

/-! ## The other agents -/

/-- T70: the third frame finds the FIFO of depth 2 full. -/
theorem test_busRx_full :
    goesTo (agentStep (.busRx 0 sample) { live [sample, sample] [] with
      adp := (live [] []).adp.set 0 { (live [sample, sample] []).adp[0] with rxdepth := 2 } })
      (fun t => t.adp[0].rxq == [sample, sample]) := by decide
/-- P1, step 5: the departing frame as the bus sees it, bits [127:29] of the packed word. -/
theorem test_busTx_packed :
    (cycleOut { rst := false, cmdValid := false, cmd := 0, busrxValid := Vector.replicate 3 false, busrxFrame := Vector.replicate 3 0
                bustxReady := Vector.replicate 3 false, env := Env.zero } (live [] [{ sample with id := 1452 }])).bustxFrame[0] =
      some ((0x000000000003020100002D6180000000 : Payload).extractLsb' 29 99) := by decide
/-- R230. -/
theorem test_hardwareReset :
    goesTo (agentStep .hardwareReset { live [sample] [sample] with sent := 7 }) (fun t => t == State.reset) := by decide
/-- R87: `rtr` and `ext` left out are 0, and the bytes beyond `len` are not encoded. -/
theorem test_text_read_send :
    readCommand ⟨"SEND", [("node", .number 44), ("len", .number 3), ("data", .list [1, 2, 3, 4])]⟩ =
      some (.send none false false 3 44 0x030201) := by decide
/-- R87: `pmaj` without `pmin` is no command. -/
theorem test_text_read_half_priority : readCommand ⟨"ENCODE", [("pmaj", .number 1), ("node", .number 5)]⟩ = none := by decide
/-- R87, written out. -/
theorem test_text_send : commandText (.send (some ⟨0, 0⟩) false false 3 44 0x030201) =
    "SEND node=44, len=3, data=[1,2,3], rtr=0, ext=0, pmaj=0, pmin=0" := by decide

/-! ## Witnesses: for each statement with hypotheses, a case that meets them, clause by clause at a boundary where there is one -/

/-- An ACTIVE session in which this command word is presented next. -/
def presented (w : CmdWord) : State := presentCommand w (live [sample] [sample])

theorem test_witness_StepRunsDecodedCommand :
    (presented 0x12).pending = ⟨Env.zero, .command 0x12⟩ :: [] ∧ decode 0x12 = .instr (.begin true) := by decide

theorem test_witness_ReservedOpcodeIsAnsweredIllegal :
    (presented 0xA).pending = ⟨Env.zero, .command 0xA⟩ :: [] ∧ 10 ≤ (0xA : CmdWord).toNat % 16 ∧
      (presented 0xFF).pending = ⟨Env.zero, .command 0xFF⟩ :: [] ∧ 10 ≤ (0xFF : CmdWord).toNat % 16 := by decide

theorem test_witness_OnlyUnguardedReceiveFaults :
    exec .receive (live [] []) = .fault .receiveUndefined ∧ ¬ framePending (live [] []) ∧ framePending (live [sample] []) :=
  ⟨rfl, by decide, by decide⟩

theorem test_witness_HistoryIsOutputOnly :
    step (presented 0x6) = .next (beginSession false (callEnd 0 (live [sample] [sample]))) ∧
      step (presentCommand 0x4 State.reset) = .fault .receiveUndefined := ⟨rfl, rfl⟩

theorem test_witness_DecodeEncodeAgree :
    (Instr.send (some ⟨255, 255⟩) true true 8 0x1FFFFFFF 0xFFFFFFFFFFFFFFFF).wf = true ∧
      (Instr.send none false false 15 0 0).wf = true := by decide

theorem test_witness_DecodedCommandsAreCanonical :
    decode 0xFFFFFFFFFFFFFFFF00000004FFFFFFF5 = .instr (.send (some ⟨255, 255⟩) true true 9 0 0) := by decide

/-- Two SEND words that differ in byte operand c and in the lanes at and beyond `len` = 1. -/
theorem test_witness_IgnoredFieldsDoNotMatter :
    let w : CmdWord := 0x000000000000AA0A000001609FF03025
    let v : CmdWord := 0x000000000000000A0000016090003025
    w ≠ v ∧ cmdOp w = cmdOp v ∧ cmdPx w = cmdPx v ∧ cmdA w = cmdA v ∧ cmdB w = cmdB v ∧ cmdId w = cmdId v ∧ cmdRtr w = cmdRtr v ∧
      cmdExt w = cmdExt v ∧ cmdLen w = cmdLen v ∧ cmdLen w = 1 ∧ ∀ k : Fin 8, (cmdData w).getLsbD k = (cmdData v).getLsbD k := by
  decide

theorem test_witness_FramePackingLosesNothing :
    sample.wf = true ∧ Frame.wf ⟨0x1FFFFFFF, 8, [1, 2, 3, 4, 5, 6, 7, 8], true, true⟩ = true ∧
      Frame.wf ⟨2047, 0, [], false, false⟩ = true := by decide

theorem test_witness_TextFormLosesNothing :
    (Instr.send (some ⟨4, 3⟩) true false 3 44 0x030201).wf = true ∧ (Instr.send none false true 9 200 0).wf = true := by decide

theorem test_witness_ResponseWordLayout :
    rspWord (okResponse true 5) = rspWord ⟨.ok, true, false, 5⟩ := rfl

theorem test_witness_EncodeBuildsHeader :
    (3 : Byte).toNat ≤ 3 ∧ (0 : Byte).toNat ≤ 3 ∧ (127 : Byte).toNat ≤ 127 ∧
      ((some ⟨3, 0⟩ : Option Prio) = some ⟨3, 0⟩) := by decide

theorem test_witness_EncodeRejectsOutOfRange :
    (3 < (4 : Byte).toNat ∨ 3 < (0 : Byte).toNat) ∧ ((3 : Byte).toNat ≤ 3 ∧ (3 : Byte).toNat ≤ 3 ∧ 127 < (128 : Byte).toNat) := by
  decide

theorem test_witness_DecodeSplitsHeader : (2047 : CanId).toNat ≤ 2047 ∧ 2047 < (2048 : CanId).toNat := by decide

theorem test_witness_CodecRoundTrip :
    ((3 : Byte).toNat ≤ 3 ∧ (0 : Byte).toNat ≤ 3 ∧ (127 : Byte).toNat ≤ 127) ∧ (2047 : CanId).toNat ≤ 2047 := by decide

/-- The ordering's last clause, and two triples apart in the node alone. -/
theorem test_witness_HeaderOrderIsLexicographic :
    ((0 : Byte).toNat ≤ 3 ∧ (126 : Byte).toNat ≤ 127 ∧ (3 : Byte).toNat ≤ 3 ∧ (127 : Byte).toNat ≤ 127) ∧
      (126 : Byte).toNat < (127 : Byte).toNat := by decide

theorem test_witness_BeginStartsSession : (live [sample] [sample]).env.status[(live [sample] [sample]).port] = 0 := by decide

theorem test_witness_FailedBeginReportsStatus :
    (withStatus 5 State.reset).env.status[(withStatus 5 State.reset).port] = 5 ∧ (5 : Word32) ≠ 0 := by decide

theorem test_witness_ResetRestartsSession :
    (live [sample] []).env.status[(live [sample] []).port] = 0 ∧
      (withStatus 0xFFFFFFFF (live [] [])).env.status[(withStatus 0xFFFFFFFF (live [] [])).port] = 0xFFFFFFFF := by decide

theorem test_witness_BitRateIsFixed :
    goesTo (step (presentCommand 0x2 State.reset))
      (fun t => t.obs == State.reset.obs ++ [.call 0 (.begin 125000 32 16 0), .response (okResponse true 0)]) := by decide

theorem test_witness_AvailableReportsQueuedFrame :
    State.reset.mode ≠ .active ∧ (live [sample] []).mode = .active ∧
      (true = true ↔ (adapterAt (live [sample] []) 0).started = true ∧ (adapterAt (live [sample] []) 0).rxq ≠ []) ∧
      (false = true ↔ (adapterAt (live [] []) 0).started = true ∧ (adapterAt (live [] []) 0).rxq ≠ []) := by decide

theorem test_witness_ReceivePopsOldestFrame :
    let s : State := { live [sample, overlong] [] with received := 4294967295 }
    s.mode = .active ∧ (adapterAt s s.port).started = true ∧ (adapterAt s s.port).rxq = sample :: [overlong] := by decide

theorem test_witness_SendQueuesFrame :
    let s := live [] (List.replicate 15 sample)
    (8 : BitVec 4).toNat ≤ 8 ∧ (3 : Byte).toNat ≤ 3 ∧ (0 : Byte).toNat ≤ 3 ∧ (127 : CanId).toNat ≤ 127 ∧ s.mode = .active ∧
      (adapterAt s s.port).started = true ∧ (adapterAt s s.port).txq.length < (adapterAt s s.port).txdepth.toNat := by decide

theorem test_witness_SendRejectsOverlongFrame : 8 < (9 : BitVec 4).toNat ∧ 8 < (15 : BitVec 4).toNat := by decide

theorem test_witness_IllegalPriorityIsRejected :
    (3 < (4 : Byte).toNat ∨ 3 < (0 : Byte).toNat) ∧ (3 < (0 : Byte).toNat ∨ 3 < (255 : Byte).toNat) ∧ (8 : BitVec 4).toNat ≤ 8 := by
  decide

theorem test_witness_SendToFullBufferIsRejected :
    let s := live [] (List.replicate 16 sample)
    (0 : BitVec 4).toNat ≤ 8 ∧ ((3 : Byte).toNat ≤ 3 ∧ (3 : Byte).toNat ≤ 3) ∧ (0 : CanId).toNat ≤ 127 ∧ s.mode = .active ∧
      (adapterAt s s.port).txdepth.toNat ≤ (adapterAt s s.port).txq.length := by decide

theorem test_witness_SendRejectsNodeThenMode :
    (8 : BitVec 4).toNat ≤ 8 ∧ ((3 : Byte).toNat ≤ 3 ∧ (3 : Byte).toNat ≤ 3) ∧ 127 < (128 : CanId).toNat ∧
      ((127 : CanId).toNat ≤ 127 ∧ State.reset.mode ≠ .active) := by decide

/-- A SEND of one byte is accepted and queued, and so is one with other data; at a full FIFO both are refused; with `len` 9 neither is
looked at. -/
theorem test_witness_SendCopiesDataExactly :
    goesTo (exec (.send none false false 1 44 0xAB) (live [] [sample])) (fun t => (adapterAt t 0).txq ==
      (adapterAt (live [] [sample]) 0).txq ++ [⟨1452, 1, [0xAB], false, false⟩]) ∧
    goesTo (exec (.send none false false 1 44 0xCD) (live [] [sample])) (fun t => (adapterAt t 0).txq ==
      (adapterAt (live [] [sample]) 0).txq ++ [⟨1452, 1, [0xCD], false, false⟩]) ∧
    goesTo (exec (.send none false false 1 44 0xAB) (live [] (List.replicate 16 sample))) (fun _ => true) ∧
    goesTo (exec (.send none false false 1 44 0xCD) (live [] (List.replicate 16 sample))) (fun _ => true) ∧
    8 < (9 : BitVec 4).toNat := by decide

theorem test_witness_CapacitiesTakeEffectAtReset : (live [] []).env.status[(live [] []).port] = 0 := by decide

theorem test_witness_SetPortRebinds :
    (1 : Byte).toNat = (0 : Port).val + 1 ∧ (3 : Byte).toNat = (2 : Port).val + 1 ∧ (live [] []).mode = .active ∧
      State.reset.mode ≠ .active := by decide

theorem test_witness_InvalidPortFallsBack :
    ((0 : Byte).toNat = 0 ∨ 3 < (0 : Byte).toNat) ∧ ((4 : Byte).toNat = 0 ∨ 3 < (4 : Byte).toNat) ∧ (live [] []).mode = .active ∧
      State.reset.mode ≠ .active := by decide

/-- A begin that fails in an ACTIVE session: the mode falls to IDLE. -/
theorem test_witness_ModeTransitionTable :
    exec (.begin true) (withStatus 1 (live [] [])) = .next (beginSession true (withStatus 1 (live [] []))) ∧
      (beginSession true (withStatus 1 (live [] []))).mode = .idle := ⟨rfl, by decide⟩

theorem test_witness_ConfigurationWriters :
    exec (.setNumBuffers 0 255) State.reset = .next (respond (okResponse true 0) { State.reset with rxcap := 0, txcap := 255 }) ∧
      (∀ n, Instr.setNumBuffers 0 255 ≠ .setPort n) ∧ (∀ m, Instr.setNumBuffers 0 255 ≠ .begin m) ∧
      (∀ rx tx, Instr.reset ≠ .setNumBuffers rx tx) := ⟨rfl, by simp, by simp, by simp⟩

theorem test_witness_CommandsTouchBoundAdapterOnly :
    exec .reset (live [sample] []) = .next (beginSession false (callEnd 0 (live [sample] []))) ∧ (2 : Port) ≠ (live [sample] []).port :=
  ⟨rfl, by decide⟩

theorem test_witness_EveryCommandRespondsAtOnce :
    exec .reset (live [sample] []) = .next (beginSession false (callEnd 0 (live [sample] []))) := rfl

theorem test_witness_RejectedCommandsChangeNothing :
    exec (.decode 2048) (live [sample] []) = .next (reject .invalidId (live [sample] [])) ∧
      (reject .invalidId (live [sample] [])).obs.getLast? = some (.response (rejectResponse .invalidId)) := ⟨rfl, by decide⟩

/-- Every code but OK is reached, so every clause of `ErrorCodesNameTheirCause` has its case. -/
theorem test_witness_ErrorCodesNameTheirCause :
    goesTo (exec (.begin false) (withStatus 5 State.reset)) (fun t => (lastResponse (.next t)).map Response.code == some .initError) ∧
    goesTo (exec (.setPort 4) State.reset) (fun t => (lastResponse (.next t)).map Response.code == some .portWarning) ∧
    goesTo (exec (.send none false false 0 0 0) (live [] (List.replicate 16 sample)))
      (fun t => (lastResponse (.next t)).map Response.code == some .sendRejected) ∧
    goesTo (exec (.send none false false 9 0 0) State.reset)
      (fun t => (lastResponse (.next t)).map Response.code == some .malformedLength) ∧
    goesTo (exec (.encode (some ⟨4, 0⟩) 0) State.reset)
      (fun t => (lastResponse (.next t)).map Response.code == some .invalidPriority) ∧
    goesTo (exec (.encode none 128) State.reset) (fun t => (lastResponse (.next t)).map Response.code == some .invalidNodeId) ∧
    goesTo (exec (.decode 2048) State.reset) (fun t => (lastResponse (.next t)).map Response.code == some .invalidId) ∧
    goesTo (exec (.send none false false 0 0 0) State.reset)
      (fun t => (lastResponse (.next t)).map Response.code == some .notActive) := by decide

theorem test_witness_CountersClearOnlyTogether :
    exec (.begin false) { live [] [] with sent := 1 } = .next (beginSession false { live [] [] with sent := 1 }) ∧
      (beginSession false { live [] [] with sent := 1 }).sent.toNat < ({ live [] [] with sent := 1 } : State).sent.toNat :=
  ⟨rfl, by decide⟩

/-- A step that zeroes the counters, and one that does not, counting at the edge of saturation. -/
theorem test_witness_CountersCountEvents :
    (agentStep (.command 0x6) (live [] []) = .next (beginSession false (callEnd 0 (live [] []))) ∧
      zeroesCounters (.command 0x6) (live [] []) = true) ∧
    goesTo (agentStep (.command 0x4) { live [sample] [] with received := 4294967295 }) (fun t => t.received == 4294967295) ∧
      zeroesCounters (.command 0x4) { live [sample] [] with received := 4294967295 } = false := ⟨⟨rfl, by decide⟩, by decide⟩

theorem test_witness_BusArrivalIsQueuedOrLost :
    sample.wf = true ∧ overlong.wf = false ∧
      ((adapterAt (live (List.replicate 31 sample) []) 0).started = true ∧
        (adapterAt (live (List.replicate 31 sample) []) 0).rxq.length < (adapterAt (live (List.replicate 31 sample) []) 0).rxdepth.toNat) ∧
      (adapterAt (live (List.replicate 32 sample) []) 0).rxdepth.toNat ≤ (adapterAt (live (List.replicate 32 sample) []) 0).rxq.length ∧
      (adapterAt (live [] []) 1).started = false := by decide

theorem test_witness_BusDepartureEmitsOldest :
    ((adapterAt (live [] [sample]) 0).started = true ∧ (adapterAt (live [] [sample]) 0).txq = sample :: []) ∧
      ((adapterAt (live [] []) 0).started = true ∧ (adapterAt (live [] []) 0).txq = []) ∧ (adapterAt (live [] []) 2).started = false := by
  decide

theorem test_witness_BusAgentTouchesOwnFifosOnly :
    goesTo (agentStep (.busRx 0 sample) (live [] [])) (fun t => t == live [sample] []) ∧
      goesTo (agentStep (.busTx 0) (live [] [sample])) (fun t => t == { live [] [] with obs := [.emitted 0 sample] }) ∧
      (1 : Port) ≠ 0 := by decide

theorem test_witness_ArrivalIsReturnedByReceive :
    let s : State := { live [] [] with received := 4294967294 }
    s.mode = .active ∧ (adapterAt s s.port).started = true ∧ (adapterAt s s.port).rxq = [] ∧
      0 < (adapterAt s s.port).rxdepth.toNat ∧ sample.wf = true ∧ s.received.toNat < 2 ^ 32 - 1 := by decide

/-- The invariant holds of an ACTIVE session with a full transmit FIFO, and the step from it goes on. -/
theorem test_witness_StepKeepsInvariant :
    Inv (presentCommand 0x00000000000302010000016180000005 (live [sample] (List.replicate 16 sample))) ∧
      goesTo (step (presentCommand 0x00000000000302010000016180000005 (live [sample] (List.replicate 16 sample)))) (fun _ => true) := by
  decide

/-- A SEND, then a departure, with a frame queued before them. -/
def sendThenDepart : State :=
  { live [] [sample] with
    pending := [⟨Env.zero, .command 0x00000000000302010000016180000005⟩, ⟨Env.zero, .busTx 0⟩] }

theorem test_witness_TransmitFifoKeepsOrder :
    goesTo (runSteps 2 sendThenDepart) (fun t => (t.obs.all fun o => !sessionCall 0 o) &&
      emittedOn 0 t.obs == [sample] && acceptedOn 0 t.obs == [{ sample with id := 1452 }]) ∧
    ∀ x ∈ sendThenDepart.pending, x.agent ≠ .hardwareReset := by decide

/-- An arrival, then a RECEIVE, with a frame queued before them. -/
def arriveThenReceive : State :=
  { live [sample] [] with pending := [⟨Env.zero, .busRx 0 { sample with id := 7 }⟩, ⟨Env.zero, .command 0x4⟩] }

theorem test_witness_ReceiveFifoKeepsOrder :
    goesTo (runSteps 2 arriveThenReceive) (fun t => (t.obs.all fun o => !sessionCall 0 o) && poppedOn 0 t.obs == [sample] &&
      (adapterAt t 0).rxq == [{ sample with id := 7 }]) ∧ keptOn 0 2 arriveThenReceive = [{ sample with id := 7 }] ∧
    ∀ x ∈ arriveThenReceive.pending, x.agent ≠ .hardwareReset := by decide

theorem test_witness_GuardedReceiveCompletes :
    framePending arriveThenReceive ∧ (adapterAt arriveThenReceive arriveThenReceive.port).rxq = sample :: [] ∧
      arriveThenReceive.pending = [⟨Env.zero, .busRx 0 { sample with id := 7 }⟩] ++ ⟨Env.zero, .command 0x4⟩ :: [] ∧
      (∀ x ∈ [(⟨Env.zero, .busRx 0 { sample with id := 7 }⟩ : Presented)], harmless x.agent = true) ∧
      decode 0x4 = .instr .receive := by decide

/-- The inputs of a cycle in which a command is presented, a frame is offered to port 2 and every departure is accepted. -/
def busyCycle (rst cmdValid : Bool) : CycleIn :=
  { rst := rst, cmdValid := cmdValid, cmd := 0x9, busrxValid := Vector.ofFn (fun p => p == 1)
    busrxFrame := Vector.replicate 3 (packBus sample), bustxReady := Vector.replicate 3 true, env := Env.zero }

/-- Every clause of `CycleIsOneStep`: reset, the command, an arrival at the bound port 2, a departure at port 1, and nothing. -/
theorem test_witness_CycleIsOneStep :
    (live [] [sample]).pending = [] ∧
      selectStep (busyCycle true true) (live [] [sample]) = some .hardwareReset ∧
      selectStep (busyCycle false true) (live [] [sample]) = some (.command 0x9) ∧
      selectStep (busyCycle false false) { State.reset with
        mode := .active, port := 1, adp := State.reset.adp.set 1 (adapterBegin 0 125000 32 16 Adapter.reset) } =
        some (.busRx 1 sample) ∧
      selectStep (busyCycle false false) (live [] [sample]) = some (.busTx 0) ∧
      selectStep (busyCycle false false) State.reset = none ∧
      (∃ p : Port, (busyCycle false false).busrxValid[p] = true ∧
        (adapterAt { State.reset with adp := State.reset.adp.set 1 (adapterBegin 0 125000 32 16 Adapter.reset) } p).started = true) ∧
      (∃ p : Port, (adapterAt (live [] [sample]) p).started = true ∧ (adapterAt (live [] [sample]) p).txq ≠ [] ∧
        (busyCycle false false).bustxReady[p] = true) := by decide

theorem test_witness_CommandCycleCarriesResponse :
    (busyCycle false true).rst = false ∧ (busyCycle false true).cmdValid = true ∧ decode (busyCycle false true).cmd = .instr .status ∧
      goesTo (exec .status { live [] [] with env := (busyCycle false true).env }) (fun _ => true) ∧
      decode { busyCycle false true with cmd := 0xFF }.cmd = .reservedOpcode 15 := by decide

/-- A step that puts the oldest frame on the bus. -/
theorem test_witness_StepKeepsTransmitOrder :
    goesTo (step { sendThenDepart with pending := [⟨Env.zero, .busTx 0⟩] }) (fun t => t.obs == [.emitted 0 sample]) ∧
    (∀ x ∈ [(⟨Env.zero, .busTx 0⟩ : Presented)].head?, x.agent ≠ .hardwareReset) ∧ sessionCall 0 (.emitted 0 sample) = false := by decide

/-- A step that brings a frame: kept with room, missing at a full FIFO and at a stopped adapter. -/
theorem test_witness_StepKeepsReceiveOrder :
    goesTo (step arriveThenReceive) (fun t => t.obs == []) ∧
    (∀ x ∈ arriveThenReceive.pending.head?, x.agent ≠ .hardwareReset) ∧ arrivalKept 0 arriveThenReceive = [{ sample with id := 7 }] ∧
    arrivalKept 0 { live (List.replicate 32 sample) [] with pending := arriveThenReceive.pending } = [] ∧
    arrivalKept 0 { State.reset with pending := arriveThenReceive.pending } = [] := by decide

/-- R89: `rsp_valid` is `cmd_valid` in a reset cycle too. -/
theorem test_rspValid_in_reset_cycle :
    (cycleOut (busyCycle true true) State.reset).rspValid = true ∧ (cycleOut (busyCycle true false) State.reset).rspValid = false := by
  decide

end Sys2Proof.Tests
end

section
/-! PROOFS. Who writes the configuration registers (10_state.md R25 to R28) and who clears the counters (R31): each register's rule is
proved over `Ran`, all a command can do, and the obligations are read off through `exec_ran`. -/

namespace Sys2Proof.Machine

open Sys2Proof.Safety

/-! What releasing the bound port for SETPORT leaves unchanged (R138) -/

@[simp] theorem releasePort_rxcap (s : State) : (releasePort s).rxcap = s.rxcap := by
  obtain ⟨_, e⟩ | ⟨_, e⟩ := releasePort_cases s <;> simp [e]
@[simp] theorem releasePort_txcap (s : State) : (releasePort s).txcap = s.txcap := by
  obtain ⟨_, e⟩ | ⟨_, e⟩ := releasePort_cases s <;> simp [e]
@[simp] theorem releasePort_poll (s : State) : (releasePort s).poll = s.poll := by
  obtain ⟨_, e⟩ | ⟨_, e⟩ := releasePort_cases s <;> simp [e]
@[simp] theorem releasePort_sent (s : State) : (releasePort s).sent = s.sent := by
  obtain ⟨_, e⟩ | ⟨_, e⟩ := releasePort_cases s <;> simp [e]
@[simp] theorem releasePort_received (s : State) : (releasePort s).received = s.received := by
  obtain ⟨_, e⟩ | ⟨_, e⟩ := releasePort_cases s <;> simp [e]

/-- Saturating, the increment never lowers a counter (R162). -/
theorem le_inc (c : Word32) : c.toNat ≤ (inc c).toNat := by
  have hc := c.isLt
  rw [inc_toNat]
  omega

/-- Beginning a session clears both counters or, when the adapter's begin fails, neither (R124, R164). -/
theorem beginSession_counters (pollMode : Bool) (s : State) :
    (s.env.status[s.port] = 0 ∧ (beginSession pollMode s).sent = 0 ∧ (beginSession pollMode s).received = 0) ∨
      ((beginSession pollMode s).sent = s.sent ∧ (beginSession pollMode s).received = s.received) := by
  obtain ⟨hst, e⟩ | ⟨_, e⟩ := beginSession_cases pollMode s
  · exact .inl ⟨hst, by simp [e]⟩
  · exact .inr (by simp [e])

/-- R25: a command that is not SETPORT keeps the binding. -/
theorem Ran.port_eq {i : Instr} {s t : State} (h : Ran s i t) (hi : ∀ n, i ≠ .setPort n) : t.port = s.port := by
  cases h with
  | setPort => exact absurd rfl (hi _)
  | answers | available | sendRefused | sendAccepted | receives | setNumBuffers | status | begin | reset => simp

/-- R26, R27: a command that is not SETNUMBUFFERS keeps both capacities. -/
theorem Ran.capacities_eq {i : Instr} {s t : State} (h : Ran s i t) (hi : ∀ rx tx, i ≠ .setNumBuffers rx tx) :
    t.rxcap = s.rxcap ∧ t.txcap = s.txcap := by
  cases h with
  | setNumBuffers => exact absurd rfl (hi _ _)
  | answers | available | sendRefused | sendAccepted | receives | setPort | status | begin | reset => simp

/-- R28: a command that is not BEGIN keeps `poll`; RESET begins its session with the value stored (D17). -/
theorem Ran.poll_eq {i : Instr} {s t : State} (h : Ran s i t) (hi : ∀ m, i ≠ .begin m) : t.poll = s.poll := by
  cases h with
  | begin => exact absurd rfl (hi _)
  | reset => simp only [beginSession_poll, callEnd_poll, ite_self]
  | answers | available | sendRefused | sendAccepted | receives | setNumBuffers | setPort | status => simp

/-- R31: a command clears both counters, and is then a BEGIN or RESET whose adapter answers 0, or it lowers neither. -/
theorem Ran.counters_cleared_or_le {i : Instr} {s t : State} (h : Ran s i t) :
    (beginsSession i = true ∧ s.env.status[s.port] = 0 ∧ t.sent = 0 ∧ t.received = 0) ∨
      (s.sent.toNat ≤ t.sent.toNat ∧ s.received.toNat ≤ t.received.toNat) := by
  cases h with
  | begin pollMode =>
    obtain ⟨hst, hclear⟩ | ⟨hsent, hreceived⟩ := beginSession_counters pollMode s
    · exact .inl ⟨rfl, hst, hclear⟩
    · exact .inr (by simp only [hsent, hreceived, le_refl, and_self])
  | reset =>
    obtain ⟨hst, hclear⟩ | ⟨hsent, hreceived⟩ := beginSession_counters s.poll (callEnd s.port s)
    · exact .inl ⟨rfl, hst, hclear⟩
    · exact .inr (by simp only [hsent, hreceived, callEnd_sent, callEnd_received, le_refl, and_self])
  | sendAccepted => exact .inr ⟨le_inc s.sent, le_rfl⟩
  | receives => exact .inr ⟨le_rfl, le_inc s.received⟩
  | answers | available | sendRefused | setNumBuffers | setPort | status => exact .inr (by simp)

/-- Settles O39: each register's rule, for every way a command can run. -/
theorem configurationWriters : Obligations.ConfigurationWriters := fun _ _ _ h =>
  ⟨(exec_ran h).port_eq, (exec_ran h).capacities_eq, (exec_ran h).poll_eq⟩

/-- Settles O44: a command that lowers a counter is not one of those that lower neither, so it clears both. -/
theorem countersClearOnlyTogether : Obligations.CountersClearOnlyTogether := by
  intro i s t h hlow
  obtain hclear | ⟨hsent, hreceived⟩ := (exec_ran h).counters_cleared_or_le
  · exact hclear
  · omega

end Sys2Proof.Machine
end

section
/-! PROOFS. The pseudo-forms and their expansions (30_encoding.md R88): ENCODE and SEND see a priority operand only through the pair it
stands for, and RESET is a BEGIN in the state after the bound adapter's `end`. -/

namespace Sys2Proof.Machine

/-- No explicit priority and an explicit (2, 3) stand for the same pair (R75). -/
theorem priorityPair_none_eq_default : priorityPair none = priorityPair (some ⟨2, 3⟩) := rfl

/-- R102: two priority operands that stand for the same pair encode alike. -/
theorem execEncode_congr_priorityPair {p q : Option Prio} (h : priorityPair p = priorityPair q) (node : Byte) (s : State) :
    execEncode p node s = execEncode q node s := by
  simp only [execEncode, h]

/-- R131: the checks of SEND see only the pair a priority operand stands for. -/
theorem sendError_congr_priorityPair {p q : Option Prio} (h : priorityPair p = priorityPair q) (len : BitVec 4) (id : CanId)
    (mode : Mode) : sendError p len id mode = sendError q len id mode := by
  simp only [sendError, h]

/-- R132: so does the header of the frame handed to the adapter. -/
theorem outgoingFrame_congr_priorityPair {p q : Option Prio} (h : priorityPair p = priorityPair q) (rtr ext : Bool)
    (len : BitVec 4) (id : CanId) (data : BitVec 64) :
    outgoingFrame p rtr ext len id data = outgoingFrame q rtr ext len id data := by
  simp only [outgoingFrame, h]

/-- R131: two priority operands that stand for the same pair send alike. -/
theorem execSend_congr_priorityPair {p q : Option Prio} (h : priorityPair p = priorityPair q) (rtr ext : Bool) (len : BitVec 4)
    (id : CanId) (data : BitVec 64) (s : State) :
    execSend p rtr ext len id data s = execSend q rtr ext len id data s := by
  simp only [execSend, sendError_congr_priorityPair h, outgoingFrame_congr_priorityPair h]

/-- R179: all that the session's `end` changes. -/
theorem callEnd_eq (p : Port) (s : State) :
    callEnd p s = { s with
      adp := s.adp.set p { s.adp[p] with started := false, rxq := [], txq := [] }
      obs := s.obs ++ [.call p .endSession] } := rfl

/-- R134: RESET is the command BEGIN with the stored `poll`, run after the bound adapter's `end`. -/
theorem exec_reset_eq_exec_begin (s : State) : exec .reset s = exec (.begin s.poll) (callEnd s.port s) := rfl

/-- Settles O18: the default pair takes the place of the missing one, and RESET's `end` is written out. -/
theorem pseudoFormsExpand : Obligations.PseudoFormsExpand := by
  intro node rtr ext len id data s
  refine ⟨?encode, ?send, ?reset⟩
  case encode => exact execEncode_congr_priorityPair priorityPair_none_eq_default node s
  case send => exact execSend_congr_priorityPair priorityPair_none_eq_default rtr ext len id data s
  case reset => rw [exec_reset_eq_exec_begin, callEnd_eq]

end Sys2Proof.Machine
end

section
/-! PROOFS. What one step shows outside (43_adapter.md R185, 41_transport.md R121, R122, R125): a command shows its calls, all on the
bound port, and then its one response; `callBegin` alone begins an adapter, and always at the fixed bit rate. -/

namespace Sys2Proof.Machine

/-- R125: the begin calls among these all pass the fixed bit rate. -/
def BeginsAtFixedRate (calls : List Call) : Prop :=
  ∀ br rx tx st, .begin br rx tx st ∈ calls → br = Config.bitrate

@[simp] theorem beginsAtFixedRate_nil : BeginsAtFixedRate [] := by
  simp [BeginsAtFixedRate]

@[simp] theorem beginsAtFixedRate_cons (c : Call) (calls : List Call) :
    BeginsAtFixedRate (c :: calls) ↔
      (∀ br rx tx st, .begin br rx tx st = c → br = Config.bitrate) ∧ BeginsAtFixedRate calls := by
  simp only [BeginsAtFixedRate, List.mem_cons, or_imp, forall_and]

/-- R121, R122: from `s` to `t` these calls are shown on the port bound in `s`, then one response, and nothing else. -/
def ShowsThenResponds (s t : State) (calls : List Call) : Prop :=
  ∃ r, t.obs = s.obs ++ calls.map (.call s.port) ++ [.response r]

/-- A response given once these calls have been shown. -/
theorem ShowsThenResponds.of_respond {s u : State} {calls : List Call} {r : Response}
    (h : u.obs = s.obs ++ calls.map (.call s.port)) : ShowsThenResponds s (respond r u) calls :=
  ⟨r, by rw [respond_obs, h]⟩

/-- Beginning a session shows one begin call, at the fixed bit rate, and the response (R124, R125). -/
theorem beginSession_showsThenResponds (pollMode : Bool) (s : State) :
    ShowsThenResponds s (beginSession pollMode s) [.begin Config.bitrate s.rxcap s.txcap s.env.status[s.port]] :=
  ⟨_, beginSession_obs pollMode s⟩

/-- RESET shows the bound adapter's `end` before what beginning the session shows (R134). -/
theorem ShowsThenResponds.after_callEnd {s t : State} {calls : List Call} (h : ShowsThenResponds (callEnd s.port s) t calls) :
    ShowsThenResponds s t (.endSession :: calls) := by
  obtain ⟨r, hobs⟩ := h
  exact ⟨r, by simp [hobs]⟩

/-- Each way a command can run, with the calls it makes. -/
theorem Ran.showsThenResponds {i : Instr} {s t : State} (h : Ran s i t) :
    ∃ calls, ShowsThenResponds s t calls ∧ BeginsAtFixedRate calls := by
  cases h with
  | answers | setNumBuffers => exact ⟨[], .of_respond (by simp), by simp⟩
  | available => exact ⟨[.available _], .of_respond rfl, by simp⟩
  | sendRefused => exact ⟨[.trySend _ false], .of_respond rfl, by simp⟩
  | sendAccepted => exact ⟨[.trySend _ true], .of_respond rfl, by simp⟩
  | receives => exact ⟨[.receive _], .of_respond rfl, by simp⟩
  | setPort =>
    obtain ⟨_, e⟩ | ⟨_, e⟩ := releasePort_cases s
    · exact ⟨[.endSession], .of_respond (by simp [e]), by simp⟩
    · exact ⟨[], .of_respond (by simp [e]), by simp⟩
  | status =>
    exact ⟨[.receiveErrorCounter s.env.rxErr[s.port], .transmitErrorCounter s.env.txErr[s.port]], .of_respond (by simp), by simp⟩
  | begin pollMode => exact ⟨_, beginSession_showsThenResponds pollMode s, by simp +contextual⟩
  | reset => exact ⟨_, (beginSession_showsThenResponds s.poll (callEnd s.port s)).after_callEnd, by simp +contextual⟩

/-- R125 for every agent's step: a begin call it shows is one of its command's. -/
theorem Stepped.begins_at_fixed_rate {a : AgentStep} {s t : State} (h : Stepped s a t) :
    ∃ new, t.obs = s.obs ++ new ∧ ∀ p br rx tx st, .call p (.begin br rx tx st) ∈ new → br = Config.bitrate := by
  cases h with
  | command _ hr =>
    obtain ⟨calls, ⟨r, hobs⟩, hrate⟩ := hr.showsThenResponds
    refine ⟨calls.map (.call s.port) ++ [.response r], by rw [hobs, List.append_assoc], fun p br rx tx st hshown => ?_⟩
    obtain ⟨hcall, _⟩ : .begin br rx tx st ∈ calls ∧ s.port = p := by simpa using hshown
    exact hrate br rx tx st hcall
  | reserved => exact ⟨[.response (rejectResponse .illegalCmd)], by simp⟩
  | departs => exact ⟨[.emitted _ _], rfl, by simp⟩
  | busStays | arrives | resets => exact ⟨[], by simp⟩

/-- Settles O41: the calls and the response of the way the command ran. -/
theorem everyCommandRespondsAtOnce : Obligations.EveryCommandRespondsAtOnce := by
  intro i s t h
  obtain ⟨calls, ⟨r, hobs⟩, -⟩ := (exec_ran h).showsThenResponds
  exact ⟨calls, r, hobs⟩

/-- Settles O23: the idle step shows nothing, and an agent's step begins an adapter at the fixed bit rate alone. -/
theorem bitRateIsFixed : Obligations.BitRateIsFixed := by
  intro s t p br rx tx st h
  obtain ⟨_, rfl⟩ | ⟨x, rest, _, hstep⟩ := step_cases h
  · exact ⟨[], by simp⟩
  · obtain ⟨new, hobs, hrate⟩ := hstep.begins_at_fixed_rate
    exact ⟨new, hobs, hrate p br rx tx st⟩

end Sys2Proof.Machine
end

section
/-! PROOFS. SEND to a full transmit FIFO (60_exceptions.md R203, 41_transport.md R131): a SEND that passes its checks goes as the
adapter's answer goes, and a full adapter refuses and stays as it was. -/

namespace Sys2Proof.Machine

/-- R75: the pair SEND works with is legal when the explicit one is; the default pair always is. -/
theorem priorityLegal_priorityPair {prio : Option Prio} (h : ∀ p, prio = some p → p.major.toNat ≤ 3 ∧ p.minor.toNat ≤ 3) :
    priorityLegal (priorityPair prio) = true := by
  cases prio with
  | none => decide
  | some p => exact priorityLegal_iff.mpr (h p rfl)

/-- R131, R203: past its checks and with the transmit FIFO full, SEND shows the adapter's refusal and rejects. -/
theorem execSend_of_full {prio : Option Prio} {len : BitVec 4} {id : CanId} {s : State}
    (hchecks : sendError prio len id s.mode = none)
    (hfull : (adapterAt s s.port).txdepth.toNat ≤ (adapterAt s s.port).txq.length) (rtr ext : Bool) (data : BitVec 64) :
    execSend prio rtr ext len id data s =
      .next (reject .sendRejected (showCall s.port (.trySend (outgoingFrame prio rtr ext len id data) false) s)) := by
  obtain ⟨_, herror, -⟩ | ⟨-, -, hroom, -⟩ | ⟨-, -, hrefused⟩ := execSend_cases prio rtr ext len id data s
  · exact absurd (hchecks.symm.trans herror) (by simp)
  · omega
  · rw [hrefused, setAdapter_adapterAt]

/-- The rejection after one refused `trySend`: both are shown in their order and nothing else changes (R185, R210). -/
theorem reject_showCall_eq (code : Code) (p : Port) (c : Call) (s : State) :
    reject code (showCall p c s) = { s with obs := s.obs ++ [.call p c, .response (rejectResponse code)] } := by
  simp [reject, respond, showCall]

/-- Settles O29: the operands and the mode pass every check, so the full FIFO's refusal is all that is left. -/
theorem sendToFullBufferIsRejected : Obligations.SendToFullBufferIsRejected := by
  refine ⟨rfl, fun prio rtr ext len id data s hlen hprio hid hmode hfull => ⟨outgoingFrame prio rtr ext len id data, ?_⟩⟩
  have hchecks : sendError prio len id s.mode = none :=
    sendError_eq_none.mpr ⟨hlen, priorityLegal_priorityPair hprio, hid, hmode⟩
  calc exec (.send prio rtr ext len id data) s
    _ = execSend prio rtr ext len id data s := rfl
    _ = .next (reject .sendRejected (showCall s.port (.trySend (outgoingFrame prio rtr ext len id data) false) s)) :=
        execSend_of_full hchecks hfull rtr ext data
    _ = .next { s with obs := s.obs ++ [.call s.port (.trySend (outgoingFrame prio rtr ext len id data) false), .response {
          code := .sendRejected, flag := false, diag := false, w := 0 }] } := by rw [reject_showCall_eq]; rfl

end Sys2Proof.Machine
end

section
/-! PROOFS. The decoder and the encoder (30_encoding.md sections 1, 3, 5): the command of each opcode is said once, and the
canonical data of a SEND is the data `keepLanes` leaves as it is. -/

namespace Sys2Proof

/-! What each opcode decodes to (R79, R83) -/

theorem decode_eq_encode {w : CmdWord} (h : cmdOp w = 0) : decode w = .instr (.encode (cmdPrio w) (cmdC w)) := by
  simp [decode, h]
theorem decode_eq_decode {w : CmdWord} (h : cmdOp w = 1) : decode w = .instr (.decode (cmdId w)) := by
  simp [decode, h]
theorem decode_eq_begin {w : CmdWord} (h : cmdOp w = 2) : decode w = .instr (.begin (w.getLsbD 4)) := by
  simp [decode, h]
theorem decode_eq_available {w : CmdWord} (h : cmdOp w = 3) : decode w = .instr .available := by
  simp [decode, h]
theorem decode_eq_receive {w : CmdWord} (h : cmdOp w = 4) : decode w = .instr .receive := by
  simp [decode, h]
theorem decode_eq_send {w : CmdWord} (h : cmdOp w = 5) :
    decode w = .instr (.send (cmdPrio w) (cmdRtr w) (cmdExt w) (cmdLen w) (cmdId w) (keepLanes (cmdLen w) (cmdData w))) := by
  simp [decode, h]
theorem decode_eq_reset {w : CmdWord} (h : cmdOp w = 6) : decode w = .instr .reset := by
  simp [decode, h]
theorem decode_eq_setNumBuffers {w : CmdWord} (h : cmdOp w = 7) : decode w = .instr (.setNumBuffers (cmdA w) (cmdB w)) := by
  simp [decode, h]
theorem decode_eq_setPort {w : CmdWord} (h : cmdOp w = 8) : decode w = .instr (.setPort (cmdA w)) := by
  simp [decode, h]
theorem decode_eq_status {w : CmdWord} (h : cmdOp w = 9) : decode w = .instr .status := by
  simp [decode, h]

/-- R83: the other opcodes are reserved. -/
theorem decode_eq_reservedOpcode {w : CmdWord} (h : 10 ≤ (cmdOp w).toNat) : decode w = .reservedOpcode (cmdOp w) := by
  unfold decode
  split
  iterate 10 omega
  rfl

/-- A word carries one of the ten opcodes or a reserved one (R79, R83). -/
theorem cmdOp_cases (w : CmdWord) :
    cmdOp w = 0 ∨ cmdOp w = 1 ∨ cmdOp w = 2 ∨ cmdOp w = 3 ∨ cmdOp w = 4 ∨ cmdOp w = 5 ∨ cmdOp w = 6 ∨ cmdOp w = 7 ∨
      cmdOp w = 8 ∨ cmdOp w = 9 ∨ 10 ≤ (cmdOp w).toNat := by
  bv_omega

/-! Canonical data (R73, R77) -/

/-- Dropping the ignored lanes twice is dropping them once. -/
@[simp] theorem keepLanes_keepLanes (len : BitVec 4) (data : BitVec 64) :
    keepLanes len (keepLanes len data) = keepLanes len data := by
  apply BitVec.eq_of_getLsbD_eq
  intro i _
  simp [keepLanes_getLsbD]

/-- With no lane ignored the data stays as it is exactly when the lanes at and beyond `len` are 0. -/
theorem keepLanes_eq_self_iff {len : BitVec 4} (data : BitVec 64) (hlen : len.toNat ≤ 8) :
    keepLanes len data = data ↔ data >>> (8 * len.toNat) = 0 := by
  constructor
  · intro h
    apply BitVec.eq_of_getLsbD_eq
    intro i _
    rw [← h, BitVec.getLsbD_ushiftRight, keepLanes_getLsbD]
    simp
  · intro h
    apply BitVec.eq_of_getLsbD_eq
    intro i _
    rw [keepLanes_getLsbD]
    by_cases hi : i < 8 * len.toNat
    · simp [hlen, hi]
    · have hbit : (data >>> (8 * len.toNat)).getLsbD (i - 8 * len.toNat) = data.getLsbD i := by
        rw [BitVec.getLsbD_ushiftRight]
        congr 1
        omega
      rw [h] at hbit
      simpa [hi] using hbit

/-- R84, R87: a SEND is canonical exactly when it holds only the lanes it reads. -/
theorem wf_send_iff {prio : Option Prio} {rtr ext : Bool} {len : BitVec 4} {id : CanId} {data : BitVec 64} :
    (Instr.send prio rtr ext len id data).wf = true ↔ keepLanes len data = data := by
  by_cases hlen : len.toNat ≤ 8
  · rw [keepLanes_eq_self_iff data hlen]
    simp [Instr.wf, hlen]
  · simp only [Instr.wf, keepLanes, if_neg hlen, beq_iff_eq]
    exact eq_comm

/-! The encoder, field by field -/

/-- R73: the priority operand reads back from the three fields it is written to. -/
@[simp] theorem cmdPrio_packCmd (f : CmdFields) : cmdPrio (packCmd f) = if f.px then some ⟨f.a, f.b⟩ else none := by
  simp [cmdPrio]

/-- R73: the fields of a priority operand hold it. -/
theorem prio_of_fields (prio : Option Prio) : (if prio.isSome then some ⟨prioA prio, prioB prio⟩ else none) = prio := by
  cases prio <;> rfl

/-- Settles O6: each opcode's fields read back, and a canonical SEND has no lane to drop. -/
theorem decodeEncodeAgree : Obligations.DecodeEncodeAgree := by
  intro i hi
  have hop : cmdOp (encode i) = (fieldsOf i).op := cmdOp_packCmd _
  cases i with
  | encode prio node => rw [decode_eq_encode hop]; simp [encode, fieldsOf, prio_of_fields]
  | decode id => rw [decode_eq_decode hop]; simp [encode, fieldsOf]
  | begin pollMode =>
    rw [decode_eq_begin hop, encode, packCmd_bit_four]
    cases pollMode <;> rfl
  | available => exact decode_eq_available hop
  | receive => exact decode_eq_receive hop
  | send prio rtr ext len id data =>
    rw [decode_eq_send hop]; simp [encode, fieldsOf, prio_of_fields, wf_send_iff.mp hi]
  | reset => exact decode_eq_reset hop
  | setNumBuffers rx tx => rw [decode_eq_setNumBuffers hop]; simp [encode, fieldsOf]
  | setPort n => rw [decode_eq_setPort hop]; simp [encode, fieldsOf]
  | status => exact decode_eq_status hop

/-- Settles O7: SEND is the one command with a canonical form to keep, and the decoder keeps only the lanes read. -/
theorem decodedCommandsAreCanonical : Obligations.DecodedCommandsAreCanonical := by
  intro w i h
  cases i with
  | send prio rtr ext len id data =>
    rw [wf_send_iff]
    unfold decode at h
    split at h <;> cases h
    exact keepLanes_keepLanes _ _
  | encode | decode | begin | available | receive | reset | setNumBuffers | setPort | status => rfl

/-- R73, R75: words that agree in `px`, and in `a` and `b` where `px` is 1, carry the same priority operand. -/
theorem cmdPrio_congr {w v : CmdWord}
    (h : cmdPx w = cmdPx v ∧ (cmdPx w = true → cmdA w = cmdA v ∧ cmdB w = cmdB v)) : cmdPrio w = cmdPrio v := by
  obtain ⟨hpx, hab⟩ := h
  unfold cmdPrio
  rw [← hpx]
  split
  · obtain ⟨ha, hb⟩ := hab ‹_›
    rw [ha, hb]
  · rfl

/-- R73, R77: data that agree in the bits of the lanes read keep the same lanes. -/
theorem keepLanes_congr {len : BitVec 4} {data data' : BitVec 64}
    (h : ∀ k, len.toNat ≤ 8 → k < 8 * len.toNat → data.getLsbD k = data'.getLsbD k) :
    keepLanes len data = keepLanes len data' := by
  apply BitVec.eq_of_getLsbD_eq
  intro i _
  simp only [keepLanes_getLsbD]
  by_cases hi : len.toNat ≤ 8 ∧ i < 8 * len.toNat
  · rw [h i hi.1 hi.2]
  · simp only [hi, decide_false, Bool.false_and]

/-- Settles O8: opcode by opcode, the command is a function of the fields the hypotheses equate. -/
theorem ignoredFieldsDoNotMatter : Obligations.IgnoredFieldsDoNotMatter := by
  intro w v hop hprio hc hid hbit hsend hbuffers hport
  have hv {x : BitVec 4} (h : cmdOp w = x) : cmdOp v = x := hop.symm.trans h
  obtain h | h | h | h | h | h | h | h | h | h | h := cmdOp_cases w
  · rw [decode_eq_encode h, decode_eq_encode (hv h), cmdPrio_congr (hprio (.inl h)), hc h]
  · rw [decode_eq_decode h, decode_eq_decode (hv h), hid (.inl h)]
  · rw [decode_eq_begin h, decode_eq_begin (hv h), hbit h]
  · rw [decode_eq_available h, decode_eq_available (hv h)]
  · rw [decode_eq_receive h, decode_eq_receive (hv h)]
  · obtain ⟨hrtr, hext, hlen, hdata⟩ := hsend h
    rw [decode_eq_send h, decode_eq_send (hv h), cmdPrio_congr (hprio (.inr h)), hrtr, hext, hid (.inr h), keepLanes_congr hdata,
      hlen]
  · rw [decode_eq_reset h, decode_eq_reset (hv h)]
  · obtain ⟨ha, hb⟩ := hbuffers h
    rw [decode_eq_setNumBuffers h, decode_eq_setNumBuffers (hv h), ha, hb]
  · rw [decode_eq_setPort h, decode_eq_setPort (hv h), hport h]
  · rw [decode_eq_status h, decode_eq_status (hv h)]
  · rw [decode_eq_reservedOpcode h, decode_eq_reservedOpcode (hop ▸ h), hop]

/-- Settles O9: the decoder evaluated on the seven words. -/
theorem writtenWordsDecode : Obligations.WrittenWordsDecode := by
  unfold Obligations.WrittenWordsDecode
  decide

end Sys2Proof
end

section
/-! PROOFS. Frames and responses in packed words (30_encoding.md R72, R80, R81): each field reads back from the place it is written
to. -/

namespace Sys2Proof.Machine

/-- The first bytes of a well-formed frame are all of them (R13). -/
theorem Frame.wf_take_data {f : Frame} (h : f.wf = true) : f.data.take f.len.toNat = f.data := by
  obtain ⟨_, hdata, _⟩ := Frame.wf_iff.mp h
  rw [← hdata, List.take_length]

/-- R72: a well-formed frame reads back from the 128-bit layout. -/
theorem unpackFrame_packFrame {f : Frame} (h : f.wf = true) : unpackFrame (packFrame f) = f := by
  obtain ⟨hlen, hdata, _⟩ := Frame.wf_iff.mp h
  have hsplit : splitLanes f.len.toNat (joinLanes f.data) = f.data := by
    rw [← hdata]
    exact splitLanes_joinLanes f.data (hdata ▸ hlen)
  simp [unpackFrame, packFrame, f.wf_take_data h, hlen, hsplit]

/-- R72: bits `[28:0]` of the 128-bit layout are 0, so the 99 bits of a bus-agent port hold the whole frame. -/
theorem packBus_append_zero (f : Frame) : packBus f ++ 0#29 = packFrame f := by
  apply BitVec.eq_of_getLsbD_eq
  intro i hi
  rw [BitVec.getLsbD_append, packBus, BitVec.getLsbD_extractLsb']
  by_cases h : i < 29
  · have hlow : (packFrame f).getLsbD i = false := by
      rw [packFrame, packCmd_getLsbD]
      grind
    simp [h, hlow]
  · simp [h, show i - 29 < 99 by omega, show 29 + (i - 29) = i by omega]

/-- Settles O10: the 128-bit layout reads back, and a bus-agent port carries all of it. -/
theorem framePackingLosesNothing : Obligations.FramePackingLosesNothing := by
  intro f h
  refine ⟨unpackFrame_packFrame h, ?_⟩
  rw [unpackBus, packBus_append_zero, unpackFrame_packFrame h]

/-! The fields of a response word (R80) -/

theorem rspWord_code (r : Response) : (rspWord r).extractLsb' 0 4 = codeBits r.code := by
  apply BitVec.eq_of_getLsbD_eq
  intro i hi
  simp [rspWord_getLsbD, hi]

theorem rspWord_flag (r : Response) : (rspWord r).getLsbD 4 = r.flag := rspWord_getLsbD r 4

theorem rspWord_diag (r : Response) : (rspWord r).getLsbD 5 = r.diag := rspWord_getLsbD r 5

theorem rspWord_reserved (r : Response) : (rspWord r).extractLsb' 6 2 = 0 := by
  apply BitVec.eq_of_getLsbD_eq
  intro i hi
  rw [BitVec.getLsbD_extractLsb', rspWord_getLsbD]
  simp [show ¬ 6 + i < 4 by omega, show ¬ 6 + i < 5 by omega, show 6 + i < 8 by omega]

theorem rspWord_payload (r : Response) : (rspWord r).extractLsb' 8 128 = r.w := by
  apply BitVec.eq_of_getLsbD_eq
  intro i hi
  rw [BitVec.getLsbD_extractLsb', rspWord_getLsbD]
  simp [show ¬ 8 + i < 4 by omega, show ¬ 8 + i < 5 by omega, show ¬ 8 + i < 6 by omega, hi]

/-- R81: a code is told by its number. -/
theorem ofNat_codeBits (c : Code) : Code.ofNat (codeBits c).toNat = c := by
  cases c <;> rfl

/-- R81: no two codes share a number. -/
theorem codeBits_injective {c d : Code} (h : codeBits c = codeBits d) : c = d := by
  rw [← ofNat_codeBits c, h, ofNat_codeBits d]

/-- R80: a response is what its word's fields say. -/
theorem rspWord_injective {q r : Response} (h : rspWord q = rspWord r) : q = r := by
  have hcode : q.code = r.code := codeBits_injective (by rw [← rspWord_code, h, rspWord_code])
  have hflag : q.flag = r.flag := by rw [← rspWord_flag, h, rspWord_flag]
  have hdiag : q.diag = r.diag := by rw [← rspWord_diag, h, rspWord_diag]
  have hw : q.w = r.w := by rw [← rspWord_payload, h, rspWord_payload]
  cases q
  cases r
  exact (Response.mk.injEq ..).mpr ⟨hcode, hflag, hdiag, hw⟩

/-- Settles O12: the numbers of R81 by evaluation, the positions of R80 field by field. -/
theorem responseWordLayout : Obligations.ResponseWordLayout := by
  refine ⟨by decide, fun r => ?_⟩
  exact ⟨rspWord_code r, rspWord_flag r, rspWord_diag r, rspWord_reserved r, rspWord_payload r, fun q => rspWord_injective⟩

end Sys2Proof.Machine
end

section
/-! PROOFS. The textual form of commands (30_encoding.md R87): each kind of operand reads back from a line that names it, and each
command's line names its operands. -/

namespace Sys2Proof.Machine

/-! One lemma per kind of operand -/

theorem readNumber_eq {l : TextLine} {name : String} {n bound : Nat} (h : operandOf l name = some (.number n)) (hn : n < bound) :
    readNumber l name bound = some n := by
  simp [readNumber, h, hn]

theorem readByte_eq {l : TextLine} {name : String} {b : Byte} (h : operandOf l name = some (.number b.toNat)) :
    readByte l name = some b := by
  simp [readByte, readNumber_eq h b.isLt]

/-- An identifier's bound 2^29, as simp writes it. -/
theorem readId_eq {l : TextLine} {name : String} {id : CanId} (h : operandOf l name = some (.number id.toNat)) :
    readNumber l name 536870912 = some id.toNat := readNumber_eq h id.isLt

theorem readFlag_eq {l : TextLine} {name : String} {b : Bool} (h : operandOf l name = some (.number b.toNat)) :
    readFlag l name = some b := by
  rw [readFlag, readNumber_eq h b.toNat_lt]
  cases b <;> rfl

theorem readPrio_eq {l : TextLine} {prio : Option Prio}
    (hmajor : operandOf l "pmaj" = prio.map fun p => .number p.major.toNat)
    (hminor : operandOf l "pmin" = prio.map fun p => .number p.minor.toNat) : readPrio l = some prio := by
  cases prio with
  | none => simp [readPrio, hmajor, hminor]
  | some p => simp [readPrio, hmajor, hminor, readByte_eq hmajor, readByte_eq hminor]

theorem readData_eq {l : TextLine} {bytes : List Byte} (h : operandOf l "data" = some (.list (bytes.map BitVec.toNat)))
    (hlen : bytes.length ≤ 8) : readData l = some bytes := by
  have hbytes : ∀ n ∈ bytes.map BitVec.toNat, n < 256 := by
    intro n hn
    obtain ⟨b, _, rfl⟩ := List.mem_map.mp hn
    exact b.isLt
  have hback : (bytes.map BitVec.toNat).map (BitVec.ofNat 8) = bytes := by
    simp [Function.comp_def]
  simp only [readData, h, List.length_map, Config.lenMax, hlen, hback]
  exact if_pos ⟨trivial, hbytes⟩

/-- R77, R87: the bytes SEND's line shows hold every lane SEND reads. -/
theorem keepLanes_joinLanes_sendData (len : BitVec 4) (data : BitVec 64) :
    keepLanes len (joinLanes (sendData len data)) = keepLanes len data := by
  apply keepLanes_congr
  intro k hlen hk
  have hbyte : (sendData len data)[k / 8]? = some (data.extractLsb' (8 * (k / 8)) 8) := by
    simp [sendData, splitLanes, Config.lenMax, hlen, show k / 8 < len.toNat by omega]
  rw [joinLanes_getLsbD _ _ (by omega), hbyte]
  simp [show k % 8 < 8 by omega, show 8 * (k / 8) + k % 8 = k by omega]

/-- R87: SEND's line shows at most eight bytes. -/
theorem sendData_length_le (len : BitVec 4) (data : BitVec 64) : (sendData len data).length ≤ 8 := by
  unfold sendData
  split
  · simpa using ‹_›
  · simp

/-- R87: the line of a SEND reads back as the SEND of the lanes it reads. -/
theorem readSend_lineOf (prio : Option Prio) (rtr ext : Bool) (len : BitVec 4) (id : CanId) (data : BitVec 64) :
    readSend (lineOf (.send prio rtr ext len id data)) = some (.send prio rtr ext len id (keepLanes len data)) := by
  have hprio := readPrio_eq (l := lineOf (.send prio rtr ext len id data)) (prio := prio) (by cases prio <;> rfl)
    (by cases prio <;> rfl)
  have hrtr : readFlag (lineOf (.send prio rtr ext len id data)) "rtr" = some rtr := readFlag_eq rfl
  have hext : readFlag (lineOf (.send prio rtr ext len id data)) "ext" = some ext := readFlag_eq rfl
  have hlen : readNumber (lineOf (.send prio rtr ext len id data)) "len" 16 = some len.toNat := readNumber_eq rfl len.isLt
  have hid : readNumber (lineOf (.send prio rtr ext len id data)) "node" 536870912 = some id.toNat := readId_eq rfl
  have hdata : readData (lineOf (.send prio rtr ext len id data)) = some (sendData len data) :=
    readData_eq rfl (sendData_length_le len data)
  simp [readSend, hprio, hrtr, hext, hlen, hid, hdata, keepLanes_joinLanes_sendData]

/-- Settles O11: each operand reads back, and a canonical SEND holds only the lanes its line shows. -/
theorem textFormLosesNothing : Obligations.TextFormLosesNothing := by
  intro i hi
  cases i with
  | encode prio node =>
    have hprio := readPrio_eq (l := lineOf (.encode prio node)) (prio := prio) (by cases prio <;> rfl) (by cases prio <;> rfl)
    have hnode : readByte (lineOf (.encode prio node)) "node" = some node := readByte_eq (by cases prio <;> rfl)
    simp [readCommand, hprio, hnode, show (lineOf (.encode prio node)).mnemonic = "ENCODE" from rfl]
  | decode id =>
    have hid : readNumber (lineOf (.decode id)) "id" 536870912 = some id.toNat := readId_eq rfl
    simp [readCommand, hid, show (lineOf (.decode id)).mnemonic = "DECODE" from rfl]
  | begin pollMode =>
    have hpoll : readFlag (lineOf (.begin pollMode)) "poll" = some pollMode := readFlag_eq rfl
    simp [readCommand, hpoll, show (lineOf (.begin pollMode)).mnemonic = "BEGIN" from rfl]
  | available => rfl
  | receive => rfl
  | send prio rtr ext len id data =>
    have hmnemonic : (lineOf (.send prio rtr ext len id data)).mnemonic = "SEND" := rfl
    simp [readCommand, hmnemonic, readSend_lineOf, wf_send_iff.mp hi]
  | reset => rfl
  | setNumBuffers rx tx =>
    have hrx : readByte (lineOf (.setNumBuffers rx tx)) "rx" = some rx := readByte_eq rfl
    have htx : readByte (lineOf (.setNumBuffers rx tx)) "tx" = some tx := readByte_eq rfl
    simp [readCommand, hrx, htx, show (lineOf (.setNumBuffers rx tx)).mnemonic = "SETNUMBUFFERS" from rfl]
  | setPort n =>
    have hn : readByte (lineOf (.setPort n)) "n" = some n := readByte_eq rfl
    simp [readCommand, hn, show (lineOf (.setPort n)).mnemonic = "SETPORT" from rfl]
  | status => rfl

end Sys2Proof.Machine
end

section
/-! PROOFS. The invariant (10_state.md R25, R33, R35 to R37). What a step does to one FIFO keeps its adapter in order; a step that
keeps the mode, the binding and which adapters are started keeps the rest; a session is begun where no adapter but the bound one
is started, and a port is bound where none is. -/

namespace Sys2Proof.Machine

open Sys2Proof.Safety

/-! FIFOs and adapters -/

/-- The empty queue is in order at any depth. -/
theorem fifoOk_nil (depth : Byte) : FifoOk [] depth := by simp [FifoOk]

/-- R35: a well-formed frame may join a queue with room. -/
theorem fifoOk_push {q : List Frame} {depth : Byte} {f : Frame} (h : FifoOk q depth) (hf : f.wf = true)
    (hroom : q.length < depth.toNat) : FifoOk (q ++ [f]) depth := by
  obtain ⟨_, hwf⟩ := h
  refine ⟨by simpa using hroom, fun g hg => ?_⟩
  rw [List.mem_append, List.mem_singleton] at hg
  obtain hg | rfl := hg
  · exact hwf g hg
  · exact hf

/-- The oldest frame may leave its queue. -/
theorem fifoOk_tail {q : List Frame} {depth : Byte} {f : Frame} (h : FifoOk (f :: q) depth) : FifoOk q depth := by
  obtain ⟨hlen, hwf⟩ := h
  rw [List.length_cons] at hlen
  exact ⟨by omega, fun g hg => hwf g (List.mem_cons_of_mem f hg)⟩

/-- A stopped and emptied adapter is in order. -/
theorem adapterOk_adapterEnd (a : Adapter) : AdapterOk (adapterEnd a) :=
  ⟨fifoOk_nil _, fifoOk_nil _, fun _ => ⟨rfl, rfl⟩, fun h => absurd h Bool.false_ne_true⟩

/-- An adapter at its reset value is in order. -/
theorem adapterOk_reset : AdapterOk Adapter.reset := adapterOk_adapterEnd Adapter.reset

/-- R125, R178: an adapter is in order after a begin at the fixed bit rate. -/
theorem adapterOk_adapterBegin (st : Word32) (rx tx : Byte) (a : Adapter) :
    AdapterOk (adapterBegin st Config.bitrate rx tx a) := by
  by_cases h : st = 0
  · rw [adapterBegin_success h]
    exact ⟨fifoOk_nil _, fifoOk_nil _, fun hs => absurd hs.symm Bool.false_ne_true, fun _ => rfl⟩
  · rw [adapterBegin_fail h]
    exact adapterOk_adapterEnd a

/-- A begin leaves its adapter started exactly when it answers 0 (R178). -/
theorem adapterBegin_started (st br : Word32) (rx tx : Byte) (a : Adapter) :
    (adapterBegin st br rx tx a).started = true ↔ st = 0 := by
  by_cases h : st = 0
  · rw [adapterBegin_success h]
    exact iff_of_true rfl h
  · rw [adapterBegin_fail h]
    exact iff_of_false Bool.false_ne_true h

/-- A started adapter stays in order with other queues that are (R35, R36). -/
theorem adapterOk_with_queues {a : Adapter} {rxq txq : List Frame} (h : AdapterOk a) (hs : a.started = true)
    (hrx : FifoOk rxq a.rxdepth) (htx : FifoOk txq a.txdepth) : AdapterOk { a with rxq := rxq, txq := txq } := by
  obtain ⟨_, _, _, hrate⟩ := h
  exact ⟨hrx, htx, fun hstop => absurd (hstop.symm.trans hs) Bool.false_ne_true, hrate⟩

/-- R131, R132: the frame of a SEND that passes its checks is well formed. -/
theorem outgoingFrame_wf {prio : Option Prio} {len : BitVec 4} {id : CanId} (hlen : len.toNat ≤ 8) (rtr ext : Bool)
    (data : BitVec 64) : (outgoingFrame prio rtr ext len id data).wf = true := by
  refine Frame.wf_iff.mpr ⟨hlen, splitLanes_length _ _, .inr ?_⟩
  have hheader := (headerOf (priorityPair prio) ((sendNode id).extractLsb' 0 7)).isLt
  simp only [outgoingFrame, BitVec.toNat_setWidth]
  omega

/-! The invariant -/

/-- R37: while the mode, the binding and the started adapters stay, an adapter in order may take the place of another. -/
theorem inv_setAdapter {s : State} (h : Inv s) (p : Port) {a : Adapter} (ha : AdapterOk a)
    (hs : a.started = (adapterAt s p).started) : Inv (setAdapter p a s) := by
  obtain ⟨hok, hstarted, hunbound⟩ := h
  refine ⟨fun q => ?_, fun q => ?_, hunbound⟩
  · rw [adapterAt_setAdapter]
    split
    · exact ha
    · exact hok q
  · rw [adapterAt_setAdapter]
    split
    · next hpq =>
        subst hpq
        rw [hs]
        exact hstarted p
    · exact hstarted q

/-- What is left of the invariant between a session's end and its next begin: every adapter is in order, and none is started but the
bound one. -/
def OnlyBoundStarted (s : State) : Prop :=
  (∀ p : Port, AdapterOk (adapterAt s p)) ∧ ∀ p : Port, (adapterAt s p).started = true → s.port = p

theorem onlyBoundStarted_of_inv {s : State} (h : Inv s) : OnlyBoundStarted s := by
  obtain ⟨hok, hstarted, _⟩ := h
  exact ⟨hok, fun p hp => ((hstarted p).mp hp).2⟩

/-- Ending the bound adapter's session keeps the others stopped (R179). -/
theorem OnlyBoundStarted.callEnd {s : State} (h : OnlyBoundStarted s) : OnlyBoundStarted (callEnd s.port s) := by
  obtain ⟨hok, hstarted⟩ := h
  refine ⟨fun q => ?_, fun q hq => ?_⟩
  · rw [adapterAt_callEnd]
    split
    · exact adapterOk_adapterEnd _
    · exact hok q
  · rw [adapterAt_callEnd] at hq
    split at hq
    · assumption
    · exact hstarted q hq

/-- A begun session is ACTIVE exactly when the adapter answered 0 (R124). -/
theorem beginSession_active_iff (pollMode : Bool) (s : State) :
    (beginSession pollMode s).mode = .active ↔ s.env.status[s.port] = 0 := by
  rw [beginSession_mode]
  split
  · exact iff_of_true rfl ‹_›
  · exact iff_of_false (by cases s.mode <;> decide) ‹_›

/-- R124, R134: beginning a session makes the invariant whole again, on success and on failure. -/
theorem OnlyBoundStarted.beginSession {s : State} (h : OnlyBoundStarted s)
    (hunbound : s.mode = .unbound → s.port = Config.fallbackPort) (pollMode : Bool) : Inv (beginSession pollMode s) := by
  obtain ⟨hok, hstarted⟩ := h
  have hadapter (q : Port) : adapterAt (Machine.beginSession pollMode s) q =
      if s.port = q then adapterBegin s.env.status[s.port] Config.bitrate s.rxcap s.txcap (adapterAt s s.port)
      else adapterAt s q := by
    rw [← adapterAt_callBegin]
    exact adapterAt_congr (beginSession_adp pollMode s) q
  refine ⟨fun q => ?_, fun q => ?_, ?_⟩
  · rw [hadapter]
    split
    · exact adapterOk_adapterBegin _ _ _ _
    · exact hok q
  · rw [hadapter, beginSession_active_iff, beginSession_port]
    split
    · next hq =>
        rw [adapterBegin_started]
        exact ⟨fun hst => ⟨hst, hq⟩, And.left⟩
    · next hq => exact iff_of_false (mt (hstarted q) hq) fun hactive => hq hactive.2
  · rw [beginSession_mode, beginSession_port]
    split
    · simp
    · cases hm : s.mode <;> simp [modeAfterFailure, hunbound, hm]

/-- R138: after the bound port has been released, no adapter is started. -/
theorem releasePort_stopped {s : State} (h : Inv s) (p : Port) :
    AdapterOk (adapterAt (releasePort s) p) ∧ (adapterAt (releasePort s) p).started = false := by
  obtain ⟨hokAfterEnd, _⟩ := (onlyBoundStarted_of_inv h).callEnd
  obtain ⟨hok, hstarted, _⟩ := h
  obtain ⟨_, e⟩ | ⟨hm, e⟩ := releasePort_cases s
  · rw [e]
    refine ⟨hokAfterEnd p, ?_⟩
    rw [adapterAt_callEnd]
    split
    · rfl
    · next hp => exact Bool.eq_false_iff.mpr fun hs => hp ((hstarted p).mp hs).2
  · rw [e]
    exact ⟨hok p, Bool.eq_false_iff.mpr fun hs => hm ((hstarted p).mp hs).1⟩

/-- A block outside ACTIVE with every adapter in order and stopped, and bound as its mode allows, meets the invariant. -/
theorem inv_of_stopped {s : State} (hstopped : ∀ p : Port, AdapterOk (adapterAt s p) ∧ (adapterAt s p).started = false)
    (hm : s.mode ≠ .active) (hunbound : s.mode = .unbound → s.port = Config.fallbackPort) : Inv s :=
  ⟨fun p => (hstopped p).1, fun p => by simp [(hstopped p).2, hm], hunbound⟩

/-- Every way a command can run keeps the invariant. -/
theorem Ran.inv {i : Instr} {s t : State} (h : Ran s i t) (hs : Inv s) : Inv t := by
  have ⟨hadapters, _, hunbound⟩ := hs
  have hok := hadapters s.port
  have ⟨hrx, htx, _, _⟩ := hok
  cases h with
  | answers | available | sendRefused | setNumBuffers | status => exact hs
  | sendAccepted hlen _ _ _ hstarted hroom =>
    exact inv_setAdapter hs s.port
      (adapterOk_with_queues hok hstarted hrx (fifoOk_push htx (outgoingFrame_wf hlen _ _ _) hroom)) rfl
  | receives _ hstarted hq =>
    rw [hq] at hrx
    exact inv_setAdapter hs s.port (adapterOk_with_queues hok hstarted (fifoOk_tail hrx) htx) rfl
  | setPort => exact inv_of_stopped (releasePort_stopped hs) (by simp) (by simp)
  | begin pollMode => exact (onlyBoundStarted_of_inv hs).beginSession hunbound pollMode
  | reset => exact (onlyBoundStarted_of_inv hs).callEnd.beginSession hunbound s.poll

/-- Hardware reset establishes the invariant, whatever the state before (R230). -/
theorem inv_hardwareReset (s : State) : Inv (hardwareReset s) :=
  inv_of_stopped (fun p => by rw [adapterAt_hardwareReset]; exact ⟨adapterOk_reset, rfl⟩) (by simp [State.reset]) fun _ => rfl

/-- Every agent's step keeps the invariant. -/
theorem Stepped.inv {a : AgentStep} {s t : State} (h : Stepped s a t) (hs : Inv s) : Inv t := by
  have ⟨hadapters, _, _⟩ := hs
  cases h with
  | command _ hr => exact hr.inv hs
  | reserved | busStays => exact hs
  | @arrives p _ hstarted hf hroom =>
    have hok := hadapters p
    have ⟨hrx, htx, _, _⟩ := hok
    exact inv_setAdapter hs p (adapterOk_with_queues hok hstarted (fifoOk_push hrx hf hroom) htx) rfl
  | @departs p _ _ hstarted hq =>
    have hok := hadapters p
    have ⟨hrx, htx, _, _⟩ := hok
    rw [hq] at htx
    exact inv_setAdapter hs p (adapterOk_with_queues hok hstarted hrx (fifoOk_tail htx)) rfl
  | resets => exact inv_hardwareReset s

/-- Settles O52: the idle step changes nothing, an agent's step latches inputs the invariant does not speak of, and every way it can
go keeps it. -/
theorem stepKeepsInvariant : Obligations.StepKeepsInvariant := by
  intro s t hs h
  obtain ⟨_, rfl⟩ | ⟨x, rest, _, hstep⟩ := step_cases h
  · exact hs
  · exact hstep.inv hs

/-- Settles O51: the machine right after reset is what hardware reset makes of it. -/
theorem resetStateMeetsInvariant : Obligations.ResetStateMeetsInvariant := inv_hardwareReset State.reset

end Sys2Proof.Machine
end

section
/-! PROOFS. Which adapter a step touches (41_transport.md R121, 60_exceptions.md R217): a command the bound one, the bus agent the
FIFOs of its own port. -/

namespace Sys2Proof.Machine

open Sys2Proof.Safety

/-- R121: a begun session is the bound adapter's. -/
theorem adapterAt_beginSession_of_ne {s : State} {q : Port} (h : s.port ≠ q) (pollMode : Bool) :
    adapterAt (beginSession pollMode s) q = adapterAt s q := by
  rw [adapterAt_congr (t := beginSession pollMode s) (s := callBegin s.port s) (beginSession_adp pollMode s) q, adapterAt_callBegin,
    if_neg h]

/-- R121: releasing the bound port ends the bound adapter alone. -/
theorem adapterAt_releasePort_of_ne {s : State} {q : Port} (h : s.port ≠ q) : adapterAt (releasePort s) q = adapterAt s q := by
  obtain ⟨_, e⟩ | ⟨_, e⟩ := releasePort_cases s
  · rw [e, adapterAt_callEnd, if_neg h]
  · rw [e]

/-- R121, D14: no way a command can run touches an adapter that is not bound. -/
theorem Ran.adapterAt_of_ne {i : Instr} {s t : State} (h : Ran s i t) {q : Port} (hq : s.port ≠ q) :
    adapterAt t q = adapterAt s q := by
  cases h with
  | answers | available | sendRefused | setNumBuffers | status => rfl
  | sendAccepted | receives => exact adapterAt_setAdapter_ne hq _ s
  | setPort => exact adapterAt_releasePort_of_ne hq
  | begin pollMode => exact adapterAt_beginSession_of_ne hq pollMode
  | reset =>
    calc adapterAt (beginSession s.poll (callEnd s.port s)) q
      _ = adapterAt (callEnd s.port s) q := adapterAt_beginSession_of_ne (s := callEnd s.port s) hq s.poll
      _ = adapterAt s q := by rw [adapterAt_callEnd, if_neg hq]

/-- Settles O40: for every way the command can have run. -/
theorem commandsTouchBoundAdapterOnly : Obligations.CommandsTouchBoundAdapterOnly := fun _ _ _ _ h hq =>
  (exec_ran h).adapterAt_of_ne hq.symm

/-- Settles O48: a bus step that is taken replaces a FIFO of its own port, and one that is not changes nothing. -/
theorem busAgentTouchesOwnFifosOnly : Obligations.BusAgentTouchesOwnFifosOnly := by
  intro p f s t h
  have hstep : Stepped s (.busRx p f) t ∨ Stepped s (.busTx p) t := h.imp agentStep_stepped agentStep_stepped
  obtain hrx | htx := hstep
  · cases hrx with
    | busStays => exact ⟨rfl, rfl, rfl, rfl, rfl, rfl, rfl, fun _ _ => rfl, _, _, rfl⟩
    | arrives =>
      exact ⟨rfl, rfl, rfl, rfl, rfl, rfl, rfl, fun q hq => adapterAt_setAdapter_ne hq.symm _ s, _, _,
        adapterAt_setAdapter_self p _ s⟩
  · cases htx with
    | busStays => exact ⟨rfl, rfl, rfl, rfl, rfl, rfl, rfl, fun _ _ => rfl, _, _, rfl⟩
    | departs =>
      exact ⟨rfl, rfl, rfl, rfl, rfl, rfl, rfl, fun q hq => adapterAt_setAdapter_ne hq.symm _ s, _, _,
        adapterAt_setAdapter_self p _ s⟩

end Sys2Proof.Machine
end

section
/-! PROOFS. The order of a port's FIFOs (20_memory.md section 6), one step at a time and over runs. A stretch of a run balances a
port when what left each FIFO, followed by what is queued after, is what was queued before followed by what joined it, unless the
port's session was begun or ended on the way. Every step but hardware reset balances every port, and stretches compose. -/

namespace Sys2Proof.Machine

open Sys2Proof.Safety Sys2Proof.Laws

/-! What is shown on a port, entry by entry -/

@[simp] theorem emittedOn_nil (p : Port) : emittedOn p [] = [] := rfl
@[simp] theorem emittedOn_append (p : Port) (l m : List Obs) : emittedOn p (l ++ m) = emittedOn p l ++ emittedOn p m :=
  List.filterMap_append
@[simp] theorem emittedOn_response (p : Port) (r : Response) (l : List Obs) : emittedOn p (.response r :: l) = emittedOn p l := rfl
@[simp] theorem emittedOn_call (p q : Port) (c : Call) (l : List Obs) : emittedOn p (.call q c :: l) = emittedOn p l := rfl
@[simp] theorem emittedOn_emitted (p q : Port) (f : Frame) (l : List Obs) :
    emittedOn p (.emitted q f :: l) = (if q = p then [f] else []) ++ emittedOn p l := by
  by_cases h : q = p <;> simp [emittedOn, h]

@[simp] theorem acceptedOn_nil (p : Port) : acceptedOn p [] = [] := rfl
@[simp] theorem acceptedOn_append (p : Port) (l m : List Obs) : acceptedOn p (l ++ m) = acceptedOn p l ++ acceptedOn p m :=
  List.filterMap_append
@[simp] theorem acceptedOn_response (p : Port) (r : Response) (l : List Obs) :
    acceptedOn p (.response r :: l) = acceptedOn p l := rfl
@[simp] theorem acceptedOn_emitted (p q : Port) (f : Frame) (l : List Obs) :
    acceptedOn p (.emitted q f :: l) = acceptedOn p l := rfl
@[simp] theorem acceptedOn_trySend (p q : Port) (f : Frame) (accepted : Bool) (l : List Obs) :
    acceptedOn p (.call q (.trySend f accepted) :: l) = (if q = p ∧ accepted = true then [f] else []) ++ acceptedOn p l := by
  by_cases h : q = p ∧ accepted = true <;> simp [acceptedOn, h]

@[simp] theorem poppedOn_nil (p : Port) : poppedOn p [] = [] := rfl
@[simp] theorem poppedOn_append (p : Port) (l m : List Obs) : poppedOn p (l ++ m) = poppedOn p l ++ poppedOn p m :=
  List.filterMap_append
@[simp] theorem poppedOn_response (p : Port) (r : Response) (l : List Obs) : poppedOn p (.response r :: l) = poppedOn p l := rfl
@[simp] theorem poppedOn_emitted (p q : Port) (f : Frame) (l : List Obs) : poppedOn p (.emitted q f :: l) = poppedOn p l := rfl
@[simp] theorem poppedOn_receive (p q : Port) (f : Frame) (l : List Obs) :
    poppedOn p (.call q (.receive f) :: l) = (if q = p then [f] else []) ++ poppedOn p l := by
  by_cases h : q = p <;> simp [poppedOn, h]

@[simp] theorem acceptedOn_receive (p q : Port) (f : Frame) (l : List Obs) :
    acceptedOn p (.call q (.receive f) :: l) = acceptedOn p l := rfl
@[simp] theorem poppedOn_trySend (p q : Port) (f : Frame) (accepted : Bool) (l : List Obs) :
    poppedOn p (.call q (.trySend f accepted) :: l) = poppedOn p l := rfl

/-- A call on another port hands this one no frame. -/
theorem acceptedOn_call_of_ne {p q : Port} (h : q ≠ p) (c : Call) (l : List Obs) :
    acceptedOn p (.call q c :: l) = acceptedOn p l := by
  cases c with
  | trySend => simp [h]
  | begin | available | receive | receiveErrorCounter | transmitErrorCounter | endSession => rfl

/-- A call on another port pops no frame of this one. -/
theorem poppedOn_call_of_ne {p q : Port} (h : q ≠ p) (c : Call) (l : List Obs) :
    poppedOn p (.call q c :: l) = poppedOn p l := by
  cases c with
  | receive => simp [h]
  | begin | available | trySend | receiveErrorCounter | transmitErrorCounter | endSession => rfl

/-- R121: what a command shows on the bound port moves no frame of another. -/
theorem moved_of_command_on_other_port {p q : Port} (h : q ≠ p) (calls : List Call) (r : Response) :
    emittedOn p (calls.map (.call q) ++ [.response r]) = [] ∧ acceptedOn p (calls.map (.call q) ++ [.response r]) = [] ∧
      poppedOn p (calls.map (.call q) ++ [.response r]) = [] := by
  induction calls with
  | nil => exact ⟨rfl, rfl, rfl⟩
  | cons c calls ih =>
    rw [List.map_cons, List.cons_append, emittedOn_call, acceptedOn_call_of_ne h, poppedOn_call_of_ne h]
    exact ih

/-- From `s` to `t`, while these frames were queued for reception on port `p`, both of its FIFOs kept their order. -/
def Balances (p : Port) (s t : State) (arrived : List Frame) : Prop :=
  ∃ new, t.obs = s.obs ++ new ∧
    ((∀ o ∈ new, sessionCall p o = false) →
      emittedOn p new ++ (adapterAt t p).txq = (adapterAt s p).txq ++ acceptedOn p new ∧
        poppedOn p new ++ (adapterAt t p).rxq = (adapterAt s p).rxq ++ arrived)

/-- A stretch that leaves the adapter as it is and shows no frame of its port. -/
theorem Balances.of_same {p : Port} {s t : State} {new : List Obs} (hobs : t.obs = s.obs ++ new)
    (hadapter : adapterAt t p = adapterAt s p)
    (hmoved : emittedOn p new = [] ∧ acceptedOn p new = [] ∧ poppedOn p new = []) : Balances p s t [] := by
  obtain ⟨hemitted, haccepted, hpopped⟩ := hmoved
  exact ⟨new, hobs, fun _ => by simp [hadapter, hemitted, haccepted, hpopped]⟩

/-- A stretch that begins or ends the port's session. -/
theorem Balances.of_sessionCall {p : Port} {s t : State} {new : List Obs} {arrived : List Frame} (hobs : t.obs = s.obs ++ new)
    {o : Obs} (ho : o ∈ new) (hcall : sessionCall p o = true) : Balances p s t arrived :=
  ⟨new, hobs, fun hquiet => absurd ((hquiet o ho).symm.trans hcall) Bool.false_ne_true⟩

theorem Balances.refl (p : Port) (s : State) : Balances p s s [] :=
  .of_same (List.append_nil _).symm rfl ⟨rfl, rfl, rfl⟩

/-- Stretches compose. -/
theorem Balances.trans {p : Port} {s t u : State} {arrived arrived' : List Frame} (h : Balances p s t arrived)
    (h' : Balances p t u arrived') : Balances p s u (arrived ++ arrived') := by
  obtain ⟨new, hobs, hbalance⟩ := h
  obtain ⟨new', hobs', hbalance'⟩ := h'
  refine ⟨new ++ new', by rw [hobs', hobs, List.append_assoc], fun hquiet => ?_⟩
  obtain ⟨htx, hrx⟩ := hbalance fun o ho => hquiet o (List.mem_append_left _ ho)
  obtain ⟨htx', hrx'⟩ := hbalance' fun o ho => hquiet o (List.mem_append_right _ ho)
  constructor
  · rw [emittedOn_append, acceptedOn_append, List.append_assoc, htx', ← List.append_assoc, htx, List.append_assoc]
  · rw [poppedOn_append, List.append_assoc, hrx', ← List.append_assoc, hrx, List.append_assoc]

/-- Each way a command can run, on the bound port. -/
theorem Ran.balances_bound {i : Instr} {s t : State} (h : Ran s i t) : Balances s.port s t [] := by
  cases h with
  | answers | setNumBuffers => exact .of_same (new := [.response _]) rfl rfl ⟨rfl, rfl, rfl⟩
  | available => exact .of_same (List.append_assoc ..) rfl ⟨rfl, rfl, rfl⟩
  | sendRefused => exact .of_same (List.append_assoc ..) rfl ⟨rfl, by simp, rfl⟩
  | status => exact .of_same ((List.append_assoc ..).trans (List.append_assoc ..)) rfl ⟨rfl, rfl, rfl⟩
  | sendAccepted =>
    refine ⟨_, List.append_assoc .., fun _ => ?_⟩
    change _ ++ (adapterAt (setAdapter s.port _ s) s.port).txq = _ ∧ _ ++ (adapterAt (setAdapter s.port _ s) s.port).rxq = _
    rw [adapterAt_setAdapter_self]
    exact ⟨by simp, by simp⟩
  | receives _ _ hq =>
    refine ⟨_, List.append_assoc .., fun _ => ?_⟩
    change _ ++ (adapterAt (setAdapter s.port _ s) s.port).txq = _ ∧ _ ++ (adapterAt (setAdapter s.port _ s) s.port).rxq = _
    rw [adapterAt_setAdapter_self]
    exact ⟨by simp, by simp [hq]⟩
  | @setPort n p r =>
    obtain ⟨_, e⟩ | ⟨_, e⟩ := releasePort_cases s
    · exact .of_sessionCall (new := [.call s.port .endSession, .response r]) (by simp [e]) (List.mem_cons_self ..)
        (by simp [sessionCall])
    · exact .of_same (new := [.response r]) (by simp [e]) (by simp [adapterAt, e]) ⟨rfl, rfl, rfl⟩
  | begin pollMode =>
    exact .of_sessionCall ((beginSession_obs pollMode s).trans (List.append_assoc ..)) (List.mem_cons_self ..)
      (by simp [sessionCall])
  | reset =>
    obtain ⟨r, hobs⟩ := (beginSession_showsThenResponds s.poll (callEnd s.port s)).after_callEnd
    exact .of_sessionCall (hobs.trans (List.append_assoc ..)) (List.mem_cons_self ..) (by simp [sessionCall])

/-- A command queues nothing for reception, on any port. -/
theorem Ran.balances {i : Instr} {s t : State} (h : Ran s i t) (p : Port) : Balances p s t [] := by
  by_cases hp : s.port = p
  · subst hp
    exact h.balances_bound
  · obtain ⟨calls, ⟨r, hobs⟩, -⟩ := h.showsThenResponds
    exact .of_same (hobs.trans (List.append_assoc ..)) (h.adapterAt_of_ne hp) (moved_of_command_on_other_port hp calls r)

/-! The frame a step brings (R181) -/

/-- The next step's arrival is that of its agent, whatever inputs it comes with. -/
theorem arrivalKept_cons {s : State} {x : Presented} {rest : List Presented} (h : s.pending = x :: rest) (p : Port) :
    arrivalKept p s = arrivalKept p { s with env := x.env, pending := [x] } := by
  simp only [arrivalKept, h]
  rfl

/-- An arrival at another port, at a stopped adapter or at a full FIFO queues nothing. -/
theorem arrivalKept_busRx_eq_nil {s : State} {e : Env} {p q : Port} {f : Frame}
    (h : q = p → (adapterAt s q).started = false ∨ (adapterAt s q).rxdepth.toNat ≤ (adapterAt s q).rxq.length) :
    arrivalKept p { s with env := e, pending := [⟨e, .busRx q f⟩] } = [] := by
  refine if_neg ?_
  rintro ⟨rfl, hs, hroom⟩
  obtain hstopped | hfull := h rfl
  · exact absurd (hstopped.symm.trans hs) Bool.false_ne_true
  · exact absurd hroom (Nat.not_lt.mpr hfull)

/-- An arrival at a started adapter with room is queued. -/
theorem arrivalKept_busRx {s : State} {e : Env} {p : Port} (f : Frame) (hs : (adapterAt s p).started = true)
    (hroom : (adapterAt s p).rxq.length < (adapterAt s p).rxdepth.toNat) :
    arrivalKept p { s with env := e, pending := [⟨e, .busRx p f⟩] } = [f] :=
  if_pos ⟨rfl, hs, hroom⟩

/-- Every agent's step but hardware reset balances every port. -/
theorem Stepped.balances {a : AgentStep} {s t : State} (h : Stepped s a t) (ha : a ≠ .hardwareReset) (e : Env) (p : Port) :
    Balances p s t (arrivalKept p { s with env := e, pending := [⟨e, a⟩] }) := by
  cases h with
  | command _ hr => exact hr.balances p
  | reserved => exact .of_same rfl rfl ⟨rfl, rfl, rfl⟩
  | busStays hstays =>
    obtain ⟨q, f, rfl, hlost⟩ | ⟨q, rfl, _⟩ := hstays
    · rw [arrivalKept_busRx_eq_nil fun _ => hlost]
      exact .refl p s
    · exact .refl p s
  | @arrives q f hs hf hroom =>
    by_cases hq : q = p
    · subst hq
      rw [arrivalKept_busRx f hs hroom]
      exact ⟨[], (List.append_nil _).symm, fun _ => by simp⟩
    · rw [arrivalKept_busRx_eq_nil fun hqp => absurd hqp hq]
      exact .of_same (List.append_nil _).symm (adapterAt_setAdapter_ne hq _ s) ⟨rfl, rfl, rfl⟩
  | @departs q g queue hs hqueue =>
    have hadapter (r : Port) :
        adapterAt { setAdapter q { adapterAt s q with txq := queue } s with obs := s.obs ++ [.emitted q g] } r =
          if q = r then { adapterAt s q with txq := queue } else adapterAt s r := adapterAt_setAdapter q r _ s
    by_cases hq : q = p
    · subst hq
      refine ⟨[.emitted q g], rfl, fun _ => ?_⟩
      rw [hadapter, if_pos rfl]
      exact ⟨by simp [hqueue], by simp [arrivalKept]⟩
    · exact .of_same rfl ((hadapter p).trans (if_neg hq)) ⟨by simp [hq], rfl, rfl⟩
  | resets => exact absurd rfl ha

/-- Every step but hardware reset balances every port. -/
theorem step_balances {s t : State} (h : step s = .next t) (hreset : ∀ x, s.pending.head? = some x → x.agent ≠ .hardwareReset)
    (p : Port) : Balances p s t (arrivalKept p s) := by
  obtain ⟨hp, rfl⟩ | ⟨x, rest, hp, hstep⟩ := step_cases h
  · have hnone : arrivalKept p t = [] := by simp [arrivalKept, hp]
    rw [hnone]
    exact .refl p t
  · rw [arrivalKept_cons hp]
    exact hstep.balances (hreset x (by rw [hp]; rfl)) x.env p

/-- Settles O58: the transmit half of a step's balance. -/
theorem stepKeepsTransmitOrder : Obligations.StepKeepsTransmitOrder := by
  intro s t p h hreset
  obtain ⟨new, hobs, hbalance⟩ := step_balances h hreset p
  exact ⟨new, hobs, fun hquiet => (hbalance hquiet).1⟩

/-- Settles O59: the receive half of a step's balance. -/
theorem stepKeepsReceiveOrder : Obligations.StepKeepsReceiveOrder := by
  intro s t p h hreset
  obtain ⟨new, hobs, hbalance⟩ := step_balances h hreset p
  exact ⟨new, hobs, fun hquiet => (hbalance hquiet).2⟩

/-! Runs -/

/-- No command touches the steps to come (R58). -/
theorem Ran.pending_eq {i : Instr} {s t : State} (h : Ran s i t) : t.pending = s.pending := by
  cases h with
  | setPort => obtain ⟨_, e⟩ | ⟨_, e⟩ := releasePort_cases s <;> simp [e]
  | answers | available | sendRefused | sendAccepted | receives | setNumBuffers | status | begin | reset => simp

/-- No agent's step touches the steps to come (R58). -/
theorem Stepped.pending_eq {a : AgentStep} {s t : State} (h : Stepped s a t) : t.pending = s.pending := by
  cases h with
  | command _ hr => exact hr.pending_eq
  | reserved | busStays | arrives | departs | resets => rfl

/-- R58: a step takes the agent's step at the head of those to come, and no other. -/
theorem step_pending {s t : State} (h : step s = .next t) : t.pending = s.pending.tail := by
  obtain ⟨hp, rfl⟩ | ⟨x, rest, hp, hstep⟩ := step_cases h
  · rw [hp]; rfl
  · rw [hstep.pending_eq, hp]; rfl

/-- A run with no hardware reset among its steps balances every port. -/
theorem runSteps_balances {k : Nat} {s t : State} (h : runSteps k s = .next t) (hreset : ∀ x ∈ s.pending, x.agent ≠ .hardwareReset)
    (p : Port) : Balances p s t (keptOn p k s) := by
  induction k generalizing s with
  | zero =>
    cases h
    exact .refl p _
  | succ k ih =>
    obtain ⟨u, hstep, hrun⟩ := runSteps_succ_eq_next h
    have hfirst := step_balances hstep (fun x hx => hreset x (List.mem_of_mem_head? hx)) p
    have hrest := ih hrun fun x hx => hreset x (List.mem_of_mem_tail (step_pending hstep ▸ hx))
    rw [keptOn, hstep]
    exact hfirst.trans hrest

/-- The frame a step queues is the one offered (R181). -/
theorem arrivalKept_sublist (p : Port) (s : State) : (arrivalKept p s).Sublist (offeredOn p (s.pending.take 1)) := by
  cases hp : s.pending with
  | nil => simp [arrivalKept, hp]
  | cons x rest =>
    obtain ⟨e, a⟩ := x
    cases a with
    | busRx q f =>
      by_cases hq : q = p
      · simp only [arrivalKept, hp, offeredOn, hq]
        split <;> simp
      · simp [arrivalKept, hp, hq]
    | command | busTx | hardwareReset => simp [arrivalKept, hp]

/-- The frames a run queues are among those offered, in their order (D24). -/
theorem keptOn_sublist {k : Nat} {s t : State} (h : runSteps k s = .next t) (p : Port) :
    (keptOn p k s).Sublist (offeredOn p (s.pending.take k)) := by
  induction k generalizing s with
  | zero => exact List.nil_sublist _
  | succ k ih =>
    obtain ⟨u, hstep, hrun⟩ := runSteps_succ_eq_next h
    have hsplit : offeredOn p (s.pending.take (k + 1)) = offeredOn p (s.pending.take 1) ++ offeredOn p (u.pending.take k) := by
      rw [step_pending hstep, offeredOn, offeredOn, offeredOn, ← List.filterMap_append]
      cases s.pending <;> simp
    rw [keptOn, hstep, hsplit]
    exact (arrivalKept_sublist p s).append (ih hrun)

/-- Settles O53: the transmit half of a run's balance. -/
theorem transmitFifoKeepsOrder : Obligations.TransmitFifoKeepsOrder := by
  intro k s t p h hreset
  obtain ⟨new, hobs, hbalance⟩ := runSteps_balances h hreset p
  exact ⟨new, hobs, fun hquiet => (hbalance hquiet).1⟩

/-- Settles O54: the receive half of a run's balance, and the kept frames among the offered. -/
theorem receiveFifoKeepsOrder : Obligations.ReceiveFifoKeepsOrder := by
  intro k s t p h hreset
  obtain ⟨new, hobs, hbalance⟩ := runSteps_balances h hreset p
  exact ⟨new, hobs, fun hquiet => ⟨keptOn_sublist h p, (hbalance hquiet).2⟩⟩

end Sys2Proof.Machine
end

section
/-! PROOFS. The codec (40_codec.md): ENCODE and DECODE as arithmetic on the identifier `major * 512 + minor * 128 + node`, and the
operands ENCODE and SEND reject, in the order they are checked. -/

namespace Sys2Proof.Machine

/-! Legal and illegal operands (R74, R102, R131) -/

/-- R75: the pair that stands for an operand given as its two bytes or by default. -/
theorem priorityPair_eq {prio : Option Prio} {major minor : Byte}
    (h : prio = some ⟨major, minor⟩ ∨ prio = none ∧ major = 2 ∧ minor = 3) : priorityPair prio = ⟨major, minor⟩ := by
  obtain rfl | ⟨rfl, rfl, rfl⟩ := h <;> rfl

/-- R75: an explicit pair stands for itself. -/
theorem priorityPair_some (p : Prio) : priorityPair (some p) = p := rfl

/-- A priority pair is out of range when one of its bytes is. -/
theorem priorityLegal_eq_false {p : Prio} : priorityLegal p = false ↔ 3 < p.major.toNat ∨ 3 < p.minor.toNat := by
  rw [← Bool.not_eq_true, priorityLegal_iff]
  omega

/-- R102: an illegal priority is the first error. -/
theorem headerError_of_priority {p : Prio} (hp : 3 < p.major.toNat ∨ 3 < p.minor.toNat) (node : Nat) :
    headerError p node = some .invalidPriority := by
  simp [headerError, priorityLegal_eq_false.mpr hp]

/-- R102: with the priority legal, an illegal node identifier is the error. -/
theorem headerError_of_node {p : Prio} {node : Nat} (hp : priorityLegal p = true) (hnode : 127 < node) :
    headerError p node = some .invalidNodeId := by
  simp [headerError, hp, nodeLegal, hnode]

/-- R102: legal operands have no error. -/
theorem headerError_of_legal {p : Prio} {node : Nat} (hp : priorityLegal p = true) (hnode : node ≤ 127) :
    headerError p node = none := by
  simp [headerError, hp, nodeLegal, hnode]

/-- R102: ENCODE answers the error its operands have. -/
theorem exec_encode_of_error {prio : Option Prio} {p : Prio} {node : Byte} {code : Code} (hpair : priorityPair prio = p)
    (h : headerError p node.toNat = some code) (s : State) : exec (.encode prio node) s = .next (reject code s) := by
  simp [exec, execEncode, hpair, h]

/-- R102: ENCODE of legal operands answers their identifier. -/
theorem exec_encode_of_legal {prio : Option Prio} {p : Prio} {node : Byte} (hpair : priorityPair prio = p)
    (hp : p.major.toNat ≤ 3 ∧ p.minor.toNat ≤ 3) (hnode : node.toNat ≤ 127) (s : State) :
    exec (.encode prio node) s = .next (respond (okResponse true (encodePayload (headerOf p (node.extractLsb' 0 7)))) s) := by
  simp [exec, execEncode, hpair, headerError_of_legal (priorityLegal_iff.mpr hp) hnode]

/-- R103: DECODE of an identifier in range answers its fields. -/
theorem exec_decode_of_legal {id : CanId} (h : id.toNat ≤ 2047) (s : State) :
    exec (.decode id) s = .next (respond (okResponse true (decodePayload (id.extractLsb' 0 11))) s) :=
  if_neg (Nat.not_lt.mpr h)

/-- R103: DECODE rejects a larger identifier. -/
theorem exec_decode_of_large {id : CanId} (h : 2047 < id.toNat) (s : State) : exec (.decode id) s = .next (reject .invalidId s) :=
  if_pos h

/-! Identifiers and payloads as numbers (R78, R82, R100) -/

/-- A legal node identifier fits in its seven bits. -/
theorem node_toNat {n : Nat} {node : BitVec n} (h : node.toNat ≤ 127) : (node.extractLsb' 0 7).toNat = node.toNat := by
  simp only [BitVec.extractLsb'_toNat, Nat.shiftRight_zero]
  omega

/-- R100: the identifier of legal operands. -/
theorem header_toNat {n : Nat} {major minor : Byte} {node : BitVec n} (hmajor : major.toNat ≤ 3) (hminor : minor.toNat ≤ 3)
    (hnode : node.toNat ≤ 127) :
    (headerOf ⟨major, minor⟩ (node.extractLsb' 0 7)).toNat = major.toNat * 512 + minor.toNat * 128 + node.toNat := by
  rw [headerOf_toNat _ hmajor hminor, node_toNat hnode]

theorem headerMajor_toNat (h : Header) : (headerMajor h).toNat = h.toNat / 512 := by
  have hh := h.isLt
  simp only [headerMajor, BitVec.extractLsb'_toNat, Nat.shiftRight_eq_div_pow]
  omega

theorem headerMinor_toNat (h : Header) : (headerMinor h).toNat = h.toNat / 128 % 4 := by
  simp only [headerMinor, BitVec.extractLsb'_toNat, Nat.shiftRight_eq_div_pow]

theorem headerNode_toNat (h : Header) : (headerNode h).toNat = h.toNat % 128 := by
  simp only [headerNode, BitVec.extractLsb'_toNat, Nat.shiftRight_zero]

/-- R82: ENCODE's payload read back. -/
theorem cmdId_encodePayload_toNat (h : Header) : (cmdId (encodePayload h)).toNat = h.toNat := by
  have hh := h.isLt
  rw [encodePayload, cmdId_packCmd, BitVec.toNat_setWidth]
  omega

/-- R82: ENCODE's payload as a number. -/
theorem encodePayload_eq (h : Header) : encodePayload h = BitVec.ofNat 128 (h.toNat * 2 ^ 35) := by
  have hh := h.isLt
  apply BitVec.eq_of_toNat_eq
  rw [encodePayload, packCmd_toNat, BitVec.toNat_ofNat]
  simp only [BitVec.toNat_setWidth, BitVec.ofNat_eq_ofNat, BitVec.toNat_ofNat, Nat.zero_mod, Bool.toNat_false]
  omega

/-! R82: DECODE's payload read back -/

theorem cmdA_decodePayload_toNat (h : Header) : (cmdA (decodePayload h)).toNat = h.toNat / 512 := by
  have hh := h.isLt
  rw [decodePayload, cmdA_packCmd, BitVec.toNat_setWidth, headerMajor_toNat]
  omega

theorem cmdB_decodePayload_toNat (h : Header) : (cmdB (decodePayload h)).toNat = h.toNat / 128 % 4 := by
  rw [decodePayload, cmdB_packCmd, BitVec.toNat_setWidth, headerMinor_toNat]
  omega

theorem cmdC_decodePayload_toNat (h : Header) : (cmdC (decodePayload h)).toNat = h.toNat % 128 := by
  rw [decodePayload, cmdC_packCmd, BitVec.toNat_setWidth, headerNode_toNat]
  omega

/-- R82: DECODE's payload as a number. -/
theorem decodePayload_eq (h : Header) :
    decodePayload h =
      BitVec.ofNat 128 (h.toNat / 512 * 2 ^ 4 + h.toNat / 128 % 4 * 2 ^ 12 + h.toNat % 128 * 2 ^ 20) := by
  have hh := h.isLt
  apply BitVec.eq_of_toNat_eq
  rw [decodePayload, packCmd_toNat, BitVec.toNat_ofNat, Nat.mod_eq_of_lt (by omega)]
  simp only [BitVec.ofNat_eq_ofNat, BitVec.toNat_ofNat, Nat.zero_mod, Bool.toNat_false, headerMajor_toNat, headerMinor_toNat,
    headerNode_toNat, BitVec.toNat_setWidth_of_le (show 2 ≤ 8 by decide), BitVec.toNat_setWidth_of_le (show 7 ≤ 8 by decide)]
  omega

/-- The identifier DECODE splits is the low 11 bits of its operand (R103). -/
theorem id_toNat {id : CanId} (h : id.toNat ≤ 2047) : (id.extractLsb' 0 11).toNat = id.toNat := by
  simp only [BitVec.extractLsb'_toNat, Nat.shiftRight_zero]
  omega

/-! The obligations -/

/-- Settles O13: the payload is the identifier's number at `W[63:35]`. -/
theorem encodeBuildsHeader : Obligations.EncodeBuildsHeader := by
  intro prio major minor node s hprio hmajor hminor hnode
  rw [exec_encode_of_legal (priorityPair_eq hprio) ⟨hmajor, hminor⟩ hnode, encodePayload_eq, header_toNat hmajor hminor hnode]
  rfl

/-- Settles O14: each clause meets its error first. -/
theorem encodeRejectsOutOfRange : Obligations.EncodeRejectsOutOfRange := by
  intro prio major minor node s hprio
  have hpair := priorityPair_eq hprio
  constructor
  · intro hillegal
    exact exec_encode_of_error hpair (headerError_of_priority hillegal _) s
  · rintro ⟨hmajor, hminor, hnode⟩
    exact exec_encode_of_error hpair (headerError_of_node (priorityLegal_iff.mpr ⟨hmajor, hminor⟩) hnode) s

/-- Settles O15: the fields' numbers at their payload positions, or the rejection. -/
theorem decodeSplitsHeader : Obligations.DecodeSplitsHeader := by
  intro id s
  constructor
  · intro h
    rw [exec_decode_of_legal h, decodePayload_eq, id_toNat h]
    rfl
  · intro h
    exact exec_decode_of_large h s

/-- R104: DECODE of the identifier ENCODE returns gives back the triple. -/
theorem decode_of_encode (major minor node : Byte) (s : State) (hmajor : major.toNat ≤ 3) (hminor : minor.toNat ≤ 3)
    (hnode : node.toNat ≤ 127) :
    ∃ w v : Payload,
      exec (.encode (some ⟨major, minor⟩) node) s = .next (respond (okResponse true w) s) ∧
      exec (.decode (cmdId w)) s = .next (respond (okResponse true v) s) ∧
      cmdA v = major ∧ cmdB v = minor ∧ cmdC v = node := by
  have hid := (cmdId_encodePayload_toNat _).trans (header_toNat hmajor hminor hnode)
  have hrange : (cmdId (encodePayload (headerOf ⟨major, minor⟩ (node.extractLsb' 0 7)))).toNat ≤ 2047 := by omega
  refine ⟨_, _, exec_encode_of_legal (priorityPair_some _) ⟨hmajor, hminor⟩ hnode s, exec_decode_of_legal hrange s, ?_, ?_, ?_⟩
  · apply BitVec.eq_of_toNat_eq
    rw [cmdA_decodePayload_toNat, id_toNat hrange]
    omega
  · apply BitVec.eq_of_toNat_eq
    rw [cmdB_decodePayload_toNat, id_toNat hrange]
    omega
  · apply BitVec.eq_of_toNat_eq
    rw [cmdC_decodePayload_toNat, id_toNat hrange]
    omega

/-- R104: ENCODE of the triple DECODE returns gives back the identifier. -/
theorem encode_of_decode (id : CanId) (s : State) (hid : id.toNat ≤ 2047) :
    ∃ w v : Payload,
      exec (.decode id) s = .next (respond (okResponse true w) s) ∧
      exec (.encode (some ⟨cmdA w, cmdB w⟩) (cmdC w)) s = .next (respond (okResponse true v) s) ∧
      cmdId v = id := by
  have hmajor := cmdA_decodePayload_toNat (id.extractLsb' 0 11)
  have hminor := cmdB_decodePayload_toNat (id.extractLsb' 0 11)
  have hnode := cmdC_decodePayload_toNat (id.extractLsb' 0 11)
  rw [id_toNat hid] at hmajor hminor hnode
  refine ⟨_, _, exec_decode_of_legal hid s, exec_encode_of_legal (priorityPair_some _) ⟨?_, ?_⟩ ?_ s, ?_⟩
  · simp only [hmajor]
    omega
  · simp only [hminor]
    omega
  · omega
  · apply BitVec.eq_of_toNat_eq
    rw [cmdId_encodePayload_toNat, header_toNat (by omega) (by omega) (by omega), hmajor, hminor, hnode]
    omega

/-- Settles O16: the two directions. -/
theorem codecRoundTrip : Obligations.CodecRoundTrip := ⟨decode_of_encode, encode_of_decode⟩

/-- Settles O17: below 4 and below 128 the numbers `major * 512 + minor * 128 + node` are ordered as the triples are. -/
theorem headerOrderIsLexicographic : Obligations.HeaderOrderIsLexicographic := by
  intro a₁ b₁ n₁ a₂ b₂ n₂ s ha₁ hb₁ hn₁ ha₂ hb₂ hn₂
  refine ⟨_, _, exec_encode_of_legal (priorityPair_some _) ⟨ha₁, hb₁⟩ hn₁ s,
    exec_encode_of_legal (priorityPair_some _) ⟨ha₂, hb₂⟩ hn₂ s, ?_⟩
  rw [cmdId_encodePayload_toNat, cmdId_encodePayload_toNat, header_toNat ha₁ hb₁ hn₁, header_toNat ha₂ hb₂ hn₂]
  simp only [← BitVec.toNat_inj]
  constructor
  · omega
  · intro hmajor₁ hminor₁ hmajor₂ hminor₂ hnode
    rw [hmajor₁, hminor₁, hmajor₂, hminor₂, hnode]
    simp

/-! SEND's rejections, in the order of its checks (R131, R209) -/

/-- SEND answers the error its operands or the mode have. -/
theorem exec_send_of_error {prio : Option Prio} {len : BitVec 4} {id : CanId} {s : State} {code : Code}
    (h : sendError prio len id s.mode = some code) (rtr ext : Bool) (data : BitVec 64) :
    exec (.send prio rtr ext len id data) s = .next (reject code s) := by
  simp [exec, execSend, h]

theorem sendError_of_overlong {len : BitVec 4} (hlen : 8 < len.toNat) (prio : Option Prio) (id : CanId) (mode : Mode) :
    sendError prio len id mode = some .malformedLength := if_pos hlen

theorem sendError_of_headerError {prio : Option Prio} {len : BitVec 4} {id : CanId} {code : Code} (hlen : len.toNat ≤ 8)
    (h : headerError (priorityPair prio) id.toNat = some code) (mode : Mode) : sendError prio len id mode = some code := by
  simp [sendError, sendNode, hlen, h]

theorem sendError_of_not_active {prio : Option Prio} {len : BitVec 4} {id : CanId} {mode : Mode} (hlen : len.toNat ≤ 8)
    (h : headerError (priorityPair prio) id.toNat = none) (hm : mode ≠ .active) : sendError prio len id mode = some .notActive := by
  simp [sendError, sendNode, hlen, h, hm]

/-- Settles O27: the length is SEND's first check. -/
theorem sendRejectsOverlongFrame : Obligations.SendRejectsOverlongFrame :=
  ⟨rfl, fun _ rtr ext _ _ data _ hlen => exec_send_of_error (sendError_of_overlong hlen _ _ _) rtr ext data⟩

/-- Settles O28: the priority is the first check of ENCODE and, past the length, of SEND. -/
theorem illegalPriorityIsRejected : Obligations.IllegalPriorityIsRejected := by
  refine ⟨rfl, fun p node rtr ext len id data s hp hlen => ⟨?_, ?_⟩⟩
  · exact exec_encode_of_error (priorityPair_some p) (headerError_of_priority hp _) s
  · exact exec_send_of_error (sendError_of_headerError (prio := some p) hlen (headerError_of_priority hp _) _) rtr ext data

/-- Settles O30: past the length and the priority, the node identifier and then the mode. -/
theorem sendRejectsNodeThenMode : Obligations.SendRejectsNodeThenMode := by
  intro prio rtr ext len id data s hlen hprio
  have hlegal := priorityLegal_priorityPair hprio
  constructor
  · intro hid
    exact exec_send_of_error (sendError_of_headerError hlen (headerError_of_node hlegal hid) _) rtr ext data
  · intro hid hm
    exact exec_send_of_error (sendError_of_not_active hlen (headerError_of_legal hlegal hid) hm) rtr ext data

end Sys2Proof.Machine
end

section
/-! PROOFS. The transport commands, each with its whole next state (41_transport.md). -/

namespace Sys2Proof.Machine

open Sys2Proof.Safety

/-! Beginning a session (R124, R134) -/

/-- R82, R201: the status code in the low half-word of the payload. -/
theorem initErrorResponse_eq (st : Word32) :
    initErrorResponse st = { code := .initError, flag := false, diag := false, w := BitVec.ofNat 128 st.toNat } := by
  have hst := st.isLt
  have hw : 0#96 ++ st = BitVec.ofNat 128 st.toNat := by
    apply BitVec.eq_of_toNat_eq
    rw [toNat_append_eq, BitVec.toNat_ofNat, BitVec.toNat_ofNat]
    omega
  rw [initErrorResponse, hw]

/-- R120: a failed begin takes ACTIVE to IDLE. -/
theorem modeAfterFailure_eq (m : Mode) : modeAfterFailure m = if m = .active then .idle else m := by
  cases m <;> rfl

/-- R120: a second failed begin finds the mode the first one left. -/
theorem modeAfterFailure_idem (m : Mode) : modeAfterFailure (modeAfterFailure m) = modeAfterFailure m := by
  cases m <;> rfl

/-- R124: the whole state after a begin that succeeds. -/
theorem beginSession_of_success {s : State} (h : s.env.status[s.port] = 0) (pollMode : Bool) :
    beginSession pollMode s = { s with
      mode := .active, sent := 0, received := 0, poll := pollMode
      adp := s.adp.set s.port { started := true, bitrate := 125000, rxdepth := s.rxcap, txdepth := s.txcap, rxq := [], txq := [] }
      obs := s.obs ++ [.call s.port (.begin 125000 s.rxcap s.txcap 0),
        .response { code := .ok, flag := true, diag := false, w := 0 }] } := by
  obtain ⟨_, e⟩ | ⟨hne, _⟩ := beginSession_cases pollMode s
  · rw [e, callBegin, h, adapterBegin_success rfl]
    simp only [respond, showCall, setAdapter, List.append_assoc]
    rfl
  · exact absurd h hne

/-- R124, R201: the whole state after a begin that fails. -/
theorem beginSession_of_failure {s : State} {st : Word32} (h : s.env.status[s.port] = st) (hst : st ≠ 0) (pollMode : Bool) :
    beginSession pollMode s = { s with
      mode := if s.mode = .active then .idle else s.mode
      adp := s.adp.set s.port { s.adp[s.port] with started := false, rxq := [], txq := [] }
      obs := s.obs ++ [.call s.port (.begin 125000 s.rxcap s.txcap st),
        .response { code := .initError, flag := false, diag := false, w := BitVec.ofNat 128 st.toNat }] } := by
  obtain ⟨hz, _⟩ | ⟨_, e⟩ := beginSession_cases pollMode s
  · exact absurd (h.symm.trans hz) hst
  · rw [e, callBegin, h, adapterBegin_fail hst, initErrorResponse_eq, modeAfterFailure_eq]
    simp only [respond, showCall, setAdapter, List.append_assoc]
    rfl

/-- Settles O19: the begin that succeeds. -/
theorem beginStartsSession : Obligations.BeginStartsSession := fun pollMode _ h =>
  congrArg Host.Outcome.next (beginSession_of_success h pollMode)

/-- Settles O20: the begin that fails. -/
theorem failedBeginReportsStatus : Obligations.FailedBeginReportsStatus := fun pollMode _ _ h hst =>
  congrArg Host.Outcome.next (beginSession_of_failure h hst pollMode)

/-- Settles O21: the session is begun in the state after the bound adapter's `end`, whose own change a begin overwrites. -/
theorem resetRestartsSession : Obligations.ResetRestartsSession := by
  intro s st h
  have hexec : exec .reset s = .next (beginSession s.poll (callEnd s.port s)) := rfl
  constructor
  · intro hst
    rw [hexec, beginSession_of_success (s := callEnd s.port s) (h.trans hst)]
    simp [callEnd_eq]
  · intro hst
    rw [hexec, beginSession_of_failure (s := callEnd s.port s) h hst]
    simp [callEnd_eq]
    rfl

/-- The adapter a begin leaves does not depend on its queues or on whether it was started (R178). -/
theorem adapterBegin_adapterBegin (st br : Word32) (rx tx : Byte) (a : Adapter) :
    adapterBegin st br rx tx (adapterBegin st br rx tx a) = adapterBegin st br rx tx a := by
  by_cases h : st = 0
  · rw [adapterBegin_success h, adapterBegin_success h]
  · rw [adapterBegin_fail h, adapterBegin_fail h]

/-- Settles O22: with the same status, capacities and `poll`, the second RESET makes the same writes as the first (corner (f)). -/
theorem resetIsIdempotent : Obligations.ResetIsIdempotent := by
  intro s
  refine ⟨_, _, rfl, rfl, ?_⟩
  by_cases h : s.env.status[s.port.val] = 0#32
  · simp [SameBlock, h]
  · simp [SameBlock, h, adapterAt, adapterBegin_adapterEnd, adapterBegin_adapterBegin, modeAfterFailure_idem]

/-! Asking the adapter (R127, R129) -/

/-- Settles O24: outside ACTIVE the answer is false, in ACTIVE it is the adapter's. -/
theorem availableReportsQueuedFrame : Obligations.AvailableReportsQueuedFrame := by
  intro s
  constructor
  · intro hm
    cases hmode : s.mode with
    | active => exact absurd hmode hm
    | idle | unbound => simp [exec, execAvailable, hmode, respond, okResponse]
  · intro answer hm hanswer
    have hadapter : adapterAvailable (adapterAt s s.port) = answer := by
      rw [Bool.eq_iff_iff, adapterAvailable_iff, hanswer]
    simp [exec, execAvailable, hm, hadapter, respond, showCall, okResponse]

/-- R162: the saturating increment as the block's rule writes it. -/
theorem inc_eq (c : Word32) : inc c = if c = 4294967295 then c else c + 1 := rfl

/-- R129: RECEIVE with a frame pending. -/
theorem exec_receive_of_pending {s : State} {f : Frame} {q : List Frame} (hm : s.mode = .active)
    (hs : (adapterAt s s.port).started = true) (hq : (adapterAt s s.port).rxq = f :: q) :
    exec .receive s = .next (respond (okResponse true (packFrame f))
      { showCall s.port (.receive f) (setAdapter s.port { adapterAt s s.port with rxq := q } s) with
        received := inc s.received }) := by
  have hpending : pendingFrame s = some (f, { adapterAt s s.port with rxq := q }) :=
    pendingFrame_eq_some.mpr ⟨hm, hs, q, hq, rfl⟩
  simp [exec, execReceive, hpending]

/-- Settles O25: the frame pending is popped. -/
theorem receivePopsOldestFrame : Obligations.ReceivePopsOldestFrame := by
  intro s f q hm hs hq
  rw [exec_receive_of_pending hm hs hq, inc_eq]
  simp [respond, showCall, setAdapter, adapterAt, okResponse]

/-! SEND (R131, R132) -/

/-- R51, R77: byte lane k of the data as a number. -/
theorem splitLanes_eq (n : Nat) (data : BitVec 64) :
    splitLanes n data = (List.range n).map fun k => BitVec.ofNat 8 (data.toNat / 2 ^ (8 * k)) := by
  refine List.map_congr_left fun k _ => BitVec.eq_of_toNat_eq ?_
  rw [BitVec.extractLsb'_toNat, BitVec.toNat_ofNat, Nat.shiftRight_eq_div_pow]

/-- R131, R132: the frame of a SEND of legal operands. -/
theorem outgoingFrame_eq {prio : Option Prio} {major minor : Byte} {id : CanId} (hpair : priorityPair prio = ⟨major, minor⟩)
    (hmajor : major.toNat ≤ 3) (hminor : minor.toNat ≤ 3) (hid : id.toNat ≤ 127) (rtr ext : Bool) (len : BitVec 4)
    (data : BitVec 64) :
    outgoingFrame prio rtr ext len id data =
      { id := BitVec.ofNat 29 (major.toNat * 512 + minor.toNat * 128 + id.toNat), len := len
        data := (List.range len.toNat).map fun k => BitVec.ofNat 8 (data.toNat / 2 ^ (8 * k)), rtr := rtr, ext := ext } := by
  have hheader : (headerOf ⟨major, minor⟩ (id.extractLsb' 0 7)).setWidth 29 =
      BitVec.ofNat 29 (major.toNat * 512 + minor.toNat * 128 + id.toNat) := by
    rw [← header_toNat hmajor hminor hid, BitVec.ofNat_toNat]
  rw [outgoingFrame, hpair, sendNode, hheader, splitLanes_eq]

/-- R131: past its checks, with a started adapter that has room, SEND is accepted. -/
theorem execSend_of_room {prio : Option Prio} {len : BitVec 4} {id : CanId} {s : State}
    (hchecks : sendError prio len id s.mode = none) (hs : (adapterAt s s.port).started = true)
    (hroom : (adapterAt s s.port).txq.length < (adapterAt s s.port).txdepth.toNat) (rtr ext : Bool) (data : BitVec 64) :
    execSend prio rtr ext len id data s = .next (respond (okResponse true 0)
      { showCall s.port (.trySend (outgoingFrame prio rtr ext len id data) true)
          (setAdapter s.port
            { adapterAt s s.port with txq := (adapterAt s s.port).txq ++ [outgoingFrame prio rtr ext len id data] } s) with
        sent := inc s.sent }) := by
  obtain ⟨_, herror, -⟩ | ⟨-, -, -, e⟩ | ⟨-, hstopped | hfull, -⟩ := execSend_cases prio rtr ext len id data s
  · exact absurd (hchecks.symm.trans herror) (by simp)
  · exact e
  · exact absurd (hstopped.symm.trans hs) Bool.false_ne_true
  · omega

/-- R131, R203: past its checks, with an adapter that is stopped or full, SEND is refused. -/
theorem execSend_of_refused {prio : Option Prio} {len : BitVec 4} {id : CanId} {s : State}
    (hchecks : sendError prio len id s.mode = none)
    (hrefused : (adapterAt s s.port).started = false ∨ (adapterAt s s.port).txdepth.toNat ≤ (adapterAt s s.port).txq.length)
    (rtr ext : Bool) (data : BitVec 64) :
    execSend prio rtr ext len id data s =
      .next (reject .sendRejected (showCall s.port (.trySend (outgoingFrame prio rtr ext len id data) false) s)) := by
  obtain ⟨_, herror, -⟩ | ⟨-, hs, hroom, -⟩ | ⟨-, -, e⟩ := execSend_cases prio rtr ext len id data s
  · exact absurd (hchecks.symm.trans herror) (by simp)
  · obtain hstopped | hfull := hrefused
    · exact absurd (hstopped.symm.trans hs) Bool.false_ne_true
    · omega
  · rw [e, setAdapter_adapterAt]

/-- Settles O26: past its checks and with room, SEND is accepted. -/
theorem sendQueuesFrame : Obligations.SendQueuesFrame := by
  intro prio major minor rtr ext len id data s g hprio hlen hmajor hminor hid hm hs hroom hg
  have hpair := priorityPair_eq hprio
  have hchecks : sendError prio len id s.mode = none :=
    sendError_eq_none.mpr ⟨hlen, by rw [hpair]; exact priorityLegal_iff.mpr ⟨hmajor, hminor⟩, hid, hm⟩
  have hframe : outgoingFrame prio rtr ext len id data = g :=
    (outgoingFrame_eq hpair hmajor hminor hid rtr ext len data).trans hg.symm
  rw [exec, execSend_of_room hchecks hs hroom, hframe, inc_eq]
  simp [respond, showCall, setAdapter, adapterAt, okResponse]

/-- R132: the bytes SEND copies. -/
theorem outgoingFrame_data (prio : Option Prio) (rtr ext : Bool) (len : BitVec 4) (id : CanId) (data : BitVec 64) :
    (outgoingFrame prio rtr ext len id data).data.length = len.toNat ∧
      ∀ k, k < len.toNat → (outgoingFrame prio rtr ext len id data).data[k]? = some (data.extractLsb' (8 * k) 8) :=
  ⟨splitLanes_length _ _, fun k hk => by simp [outgoingFrame, splitLanes, hk]⟩

/-- R131: a SEND that grows the transmit FIFO grows it by the frame it hands to the adapter. -/
theorem Ran.frame_of_send {prio : Option Prio} {rtr ext : Bool} {len : BitVec 4} {id : CanId} {data : BitVec 64} {s t : State}
    {g : Frame} (h : Ran s (.send prio rtr ext len id data) t)
    (hg : (adapterAt t s.port).txq = (adapterAt s s.port).txq ++ [g]) : g = outgoingFrame prio rtr ext len id data := by
  have hgrew : (adapterAt t s.port).txq ≠ (adapterAt s s.port).txq := by simp [hg]
  cases h with
  | answers | sendRefused => exact absurd rfl hgrew
  | sendAccepted =>
    change (adapterAt (setAdapter s.port _ s) s.port).txq = _ at hg
    rw [adapterAt_setAdapter_self] at hg
    simpa using hg.symm

/-- R132: with other data SEND does the same, but for the data of the frame handed to the adapter. -/
theorem execSend_congr_data {prio : Option Prio} {rtr ext : Bool} {len : BitVec 4} {id : CanId} {s t u : State}
    (data data' : BitVec 64) (ht : execSend prio rtr ext len id data s = .next t)
    (hu : execSend prio rtr ext len id data' s = .next u) :
    u = t ∨ ∃ (f : Frame) (d : List Byte) (accepted : Bool) (r : Response),
      let ended (x : Frame) : State := { t with
        adp := if accepted = true then s.adp.set s.port { s.adp[s.port] with txq := s.adp[s.port].txq ++ [x] } else s.adp
        obs := s.obs ++ [.call s.port (.trySend x accepted), .response r] }
      t = ended f ∧ u = ended { f with data := d } := by
  obtain ⟨code, herror, e⟩ | ⟨hchecks, hs, hroom, e⟩ | ⟨hchecks, hrefused, -⟩ := execSend_cases prio rtr ext len id data s
  · cases e.symm.trans ht
    cases (exec_send_of_error herror rtr ext data').symm.trans hu
    exact .inl rfl
  · cases e.symm.trans ht
    cases (execSend_of_room hchecks hs hroom rtr ext data').symm.trans hu
    refine .inr ⟨outgoingFrame prio rtr ext len id data, splitLanes len.toNat data', true, okResponse true 0, ?_, ?_⟩ <;>
      simp [respond, showCall, setAdapter, adapterAt, outgoingFrame]
  · cases (execSend_of_refused hchecks hrefused rtr ext data).symm.trans ht
    cases (execSend_of_refused hchecks hrefused rtr ext data').symm.trans hu
    refine .inr ⟨outgoingFrame prio rtr ext len id data, splitLanes len.toNat data', false, rejectResponse .sendRejected,
      ?_, ?_⟩ <;>
      simp [reject_showCall_eq, outgoingFrame]

/-- Settles O31: the frame's bytes, the comparison with other data, and the length found first. -/
theorem sendCopiesDataExactly : Obligations.SendCopiesDataExactly := by
  intro prio rtr ext len id data data' s t u g
  refine ⟨fun ht hg => ?_, execSend_congr_data data data', fun hlen => ?_⟩
  · rw [(exec_ran ht).frame_of_send hg]
    exact outgoingFrame_data prio rtr ext len id data
  · rw [exec_send_of_error (sendError_of_overlong hlen _ _ _), exec_send_of_error (sendError_of_overlong hlen _ _ _)]

/-! Configuration and status (R136, R138, R140) -/

/-- Settles O32: the two writes and the response are all. -/
theorem setNumBuffersWritesCapacities : Obligations.SetNumBuffersWritesCapacities := fun _ _ _ => rfl

/-- Settles O33: SETNUMBUFFERS writes no adapter, and the begin in RESET passes the capacities it wrote. -/
theorem capacitiesTakeEffectAtReset : Obligations.CapacitiesTakeEffectAtReset := by
  intro rx tx s hst
  have hreset := (resetRestartsSession (respond (okResponse true 0) { s with rxcap := rx, txcap := tx }) 0 hst).1 rfl
  exact ⟨_, _, rfl, rfl, hreset, by simp [adapterAt], by simp [adapterAt], by simp [adapterAt]⟩

/-- R138: the whole state after a SETPORT of an ACTIVE block. -/
theorem rebind_of_active {s : State} (hm : s.mode = .active) (r : Response) (p : Port) :
    respond r { releasePort s with port := p, mode := .idle } = { s with
      port := p, mode := .idle
      adp := s.adp.set s.port { s.adp[s.port] with started := false, rxq := [], txq := [] }
      obs := s.obs ++ [.call s.port .endSession, .response r] } := by
  obtain ⟨_, e⟩ | ⟨hne, _⟩ := releasePort_cases s
  · rw [e, callEnd_eq]
    simp [respond]
  · exact absurd hm hne

/-- R138: the whole state after a SETPORT outside ACTIVE. -/
theorem rebind_of_not_active {s : State} (hm : s.mode ≠ .active) (r : Response) (p : Port) :
    respond r { releasePort s with port := p, mode := .idle } =
      { s with port := p, mode := .idle, obs := s.obs ++ [.response r] } := by
  obtain ⟨ha, _⟩ | ⟨_, e⟩ := releasePort_cases s
  · exact absurd ha hm
  · rw [e]
    rfl

/-- Settles O34: a legal ordinal names its port. -/
theorem setPortRebinds : Obligations.SetPortRebinds := by
  intro n p s hn
  have hport : exec (.setPort n) s = .next (respond (okResponse true 0) { releasePort s with port := p, mode := .idle }) := by
    simp only [exec, execSetPort, portOf_eq_some.mpr hn]
  constructor
  · intro hm
    rw [hport, rebind_of_active hm]
    rfl
  · intro hm
    rw [hport, rebind_of_not_active hm]
    rfl

/-- Settles O35: an illegal ordinal names no port, so the fallback is bound. -/
theorem invalidPortFallsBack : Obligations.InvalidPortFallsBack := by
  intro n s hn
  have hport : exec (.setPort n) s =
      .next (respond portWarningResponse { releasePort s with port := Config.fallbackPort, mode := .idle }) := by
    simp only [exec, execSetPort, portOf_eq_none.mpr hn]
  constructor
  · intro hm
    rw [hport, rebind_of_active hm]
    rfl
  · intro hm
    rw [hport, rebind_of_not_active hm]
    rfl

/-- R82, R140: STATUS's payload as a number. -/
theorem statusPayload_toNat (sent received rxErrors txErrors : Word32) :
    (statusPayload sent received rxErrors txErrors).toNat =
      sent.toNat + received.toNat * 2 ^ 32 + rxErrors.toNat * 2 ^ 64 + txErrors.toNat * 2 ^ 96 := by
  unfold statusPayload
  simp only [toNat_append_eq]
  omega

theorem statusPayload_eq (sent received rxErrors txErrors : Word32) :
    statusPayload sent received rxErrors txErrors =
      BitVec.ofNat 128 (sent.toNat + received.toNat * 2 ^ 32 + rxErrors.toNat * 2 ^ 64 + txErrors.toNat * 2 ^ 96) := by
  rw [← statusPayload_toNat, BitVec.ofNat_toNat, BitVec.setWidth_eq]

/-- Settles O36: the two error counters are asked, and the payload is the four numbers. -/
theorem statusReportsSnapshot : Obligations.StatusReportsSnapshot := by
  intro s
  rw [← statusPayload_eq]
  simp [exec, execStatus, snapshot, respond, showCall, okResponse]

/-- R82: STATUS's payload read back. -/
theorem snapshotOf_statusPayload (sent received rxErrors txErrors : Word32) :
    snapshotOf (statusPayload sent received rxErrors txErrors) = ⟨sent, received, rxErrors, txErrors⟩ := by
  have hsent := sent.isLt
  have hreceived := received.isLt
  have hrx := rxErrors.isLt
  have htx := txErrors.isLt
  simp only [snapshotOf, Snapshot.mk.injEq, ← BitVec.toNat_inj, BitVec.extractLsb'_toNat, statusPayload_toNat,
    Nat.shiftRight_eq_div_pow]
  omega

/-- Settles O37: the payload reads back, and its text is the fixed line. -/
theorem statusTextRendersSnapshot : Obligations.StatusTextRendersSnapshot := by
  intro sent received rxErrors txErrors
  rw [snapshotOf_statusPayload]
  exact ⟨rfl, rfl⟩

end Sys2Proof.Machine
end

section
/-! PROOFS. Where a step can go (20_memory.md R58, 60_exceptions.md R220): every command completes but a RECEIVE with no frame
pending, and no step is without a meaning. -/

namespace Sys2Proof.Machine

open Sys2Proof.Safety

/-! The step, by the agent's step it takes -/

/-- The step takes the agent's step at the head, with its inputs (R58). -/
theorem step_cons {s : State} {x : Presented} {rest : List Presented} (h : s.pending = x :: rest) :
    step s = agentStep x.agent { s with env := x.env, pending := rest } := nextStep_cons h

/-- A command word runs as the command it stands for. -/
theorem agentStep_command {w : CmdWord} {i : Instr} (h : decode w = .instr i) (s : State) :
    agentStep (.command w) s = exec i s := by
  simp only [agentStep, runCommand, h]

/-- R83: a reserved opcode is answered ILLEGAL_CMD. -/
theorem agentStep_reserved {w : CmdWord} {op : BitVec 4} (h : decode w = .reservedOpcode op) (s : State) :
    agentStep (.command w) s = .next (illegalCommand s) := by
  simp only [agentStep, runCommand, h]

/-- Settles O1: the step takes the head of the agents' steps, and its word runs as its command. -/
theorem stepRunsDecodedCommand : Obligations.StepRunsDecodedCommand := by
  intro s e w rest i hp hd
  rw [step_cons hp, agentStep_command hd]

/-- Settles O2: the opcode's number is the word's last hexadecimal digit. -/
theorem reservedOpcodeIsAnsweredIllegal : Obligations.ReservedOpcodeIsAnsweredIllegal := by
  intro s e w rest hp hw
  have hop : 10 ≤ (cmdOp w).toNat := by simpa [cmdOp] using hw
  rw [step_cons hp, agentStep_reserved (decode_eq_reservedOpcode hop)]
  rfl

/-! Completion -/

/-- R129: a frame is pending exactly where RECEIVE has one to return. -/
theorem not_framePending_iff {s : State} : ¬ framePending s ↔ pendingFrame s = none := by
  rw [pendingFrame_eq_none, framePending, not_and_or, Bool.not_eq_true]

/-- A command completes, or is a RECEIVE with no frame pending (R129, R220). -/
theorem exec_completes_or_undefined (i : Instr) (s : State) :
    (∃ t, exec i s = .next t) ∨ (i = .receive ∧ ¬ framePending s ∧ exec i s = .fault .receiveUndefined) := by
  cases i with
  | encode prio node =>
    simp only [exec, execEncode]
    split <;> exact .inl ⟨_, rfl⟩
  | decode id =>
    simp only [exec, execDecode]
    split <;> exact .inl ⟨_, rfl⟩
  | available =>
    simp only [exec, execAvailable]
    split <;> exact .inl ⟨_, rfl⟩
  | receive =>
    rw [not_framePending_iff]
    simp only [exec, execReceive]
    split
    · exact .inl ⟨_, rfl⟩
    · exact .inr ⟨trivial, ‹_›, rfl⟩
  | send prio rtr ext len id data =>
    obtain ⟨_, _, e⟩ | ⟨_, _, _, e⟩ | ⟨_, _, e⟩ := execSend_cases prio rtr ext len id data s <;> exact .inl ⟨_, e⟩
  | setPort n =>
    simp only [exec, execSetPort]
    split <;> exact .inl ⟨_, rfl⟩
  | begin | reset | setNumBuffers | status => exact .inl ⟨_, rfl⟩

/-- R220: RECEIVE with no frame pending goes wrong. -/
theorem exec_receive_of_undefined {s : State} (h : ¬ framePending s) : exec .receive s = .fault .receiveUndefined := by
  simp only [exec, execReceive, not_framePending_iff.mp h]

/-- Settles O4: a command that goes wrong does not complete, so it is that RECEIVE. -/
theorem onlyUnguardedReceiveFaults : Obligations.OnlyUnguardedReceiveFaults := by
  intro i s
  have hfault {f : Fault} (h : exec i s = .fault f) : (i = .receive ∧ ¬ framePending s) ∧ f = .receiveUndefined := by
    obtain ⟨t, e⟩ | ⟨hi, hpending, e⟩ := exec_completes_or_undefined i s
    · cases e.symm.trans h
    · cases e.symm.trans h
      exact ⟨⟨hi, hpending⟩, rfl⟩
  refine ⟨⟨fun ⟨f, h⟩ => (hfault h).1, ?_⟩, fun f h => (hfault h).2⟩
  rintro ⟨rfl, hpending⟩
  exact ⟨_, exec_receive_of_undefined hpending⟩

/-- Every agent's step goes on or goes wrong. -/
theorem agentStep_ne_refused (a : AgentStep) (s : State) (r : Refusal) : agentStep a s ≠ .refused r := by
  intro h
  cases a with
  | command w =>
    cases hd : decode w with
    | instr i =>
      rw [agentStep_command hd] at h
      obtain ⟨_, e⟩ | ⟨_, _, e⟩ := exec_completes_or_undefined i s <;> cases e.symm.trans h
    | reservedOpcode op => cases (agentStep_reserved hd s).symm.trans h
  | busRx p f => obtain ⟨_, e⟩ | ⟨_, _, e⟩ | ⟨_, _, _, e⟩ | ⟨_, _, _, e⟩ := busRx_cases p f s <;> cases e.symm.trans h
  | busTx p => obtain ⟨_, e⟩ | ⟨_, _, _, _, e⟩ := busTx_cases p s <;> cases e.symm.trans h
  | hardwareReset => cases h

/-- Settles O3: with nothing to come the block idles, and every agent's step has its meaning. -/
theorem nothingIsRefused : Obligations.NothingIsRefused := by
  intro s r h
  cases hp : s.pending with
  | nil => cases (nextStep_nil hp).symm.trans h
  | cons x rest => exact agentStep_ne_refused _ _ r ((step_cons hp).symm.trans h)

end Sys2Proof.Machine
end

section
/-! PROOFS. The shown list is output only (70_reset_and_hazards.md R243): what a step does from a state with another history is what
it does from the state itself, with what it newly shows appended to that history. -/

namespace Sys2Proof.Machine

/-- The second outcome is the first with the history `o` in the place of `h`: both append the same to it. -/
inductive SameButHistory (h o : List Obs) :
    Host.Outcome State Fault Refusal → Host.Outcome State Fault Refusal → Prop where
  | next {t u : State} (new : List Obs) (ht : t.obs = h ++ new) (hu : u = { t with obs := o ++ new }) :
      SameButHistory h o (.next t) (.next u)
  | fault (f : Fault) : SameButHistory h o (.fault f) (.fault f)

/-- Beginning a session appends its call and its response to any history. -/
theorem beginSession_with_obs (pollMode : Bool) (s : State) (o : List Obs) :
    beginSession pollMode { s with obs := o } = { beginSession pollMode s with
      obs := o ++ [.call s.port (.begin Config.bitrate s.rxcap s.txcap s.env.status[s.port]),
        .response (if s.env.status[s.port] = 0 then okResponse true beginPayload
          else initErrorResponse s.env.status[s.port])] } := by
  unfold beginSession
  split <;> simp [*, respond, callBegin, showCall, setAdapter, adapterAt]

/-- Rebinding appends its call, in ACTIVE, and its response to any history. -/
theorem rebind_sameButHistory (s : State) (o : List Obs) (r : Response) (p : Port) :
    SameButHistory s.obs o (.next (respond r { releasePort s with port := p, mode := .idle }))
      (.next (respond r { releasePort { s with obs := o } with port := p, mode := .idle })) := by
  by_cases hm : s.mode = .active
  · rw [rebind_of_active hm, rebind_of_active (s := { s with obs := o }) hm]
    exact .next _ rfl rfl
  · rw [rebind_of_not_active hm, rebind_of_not_active (s := { s with obs := o }) hm]
    exact .next _ rfl rfl

/-- Every command, whatever has been shown before. -/
theorem exec_sameButHistory (i : Instr) (s : State) (o : List Obs) :
    SameButHistory s.obs o (exec i s) (exec i { s with obs := o }) := by
  cases i with
  | encode prio node =>
    simp only [exec, execEncode]
    split <;> exact .next _ rfl rfl
  | decode id =>
    simp only [exec, execDecode]
    split <;> exact .next _ rfl rfl
  | begin pollMode =>
    exact .next _ ((beginSession_obs pollMode s).trans (List.append_assoc ..)) (beginSession_with_obs pollMode s o)
  | available =>
    simp only [exec, execAvailable]
    split
    · exact .next _ (List.append_assoc ..) (by simp [respond, showCall, adapterAt])
    · exact .next _ rfl rfl
    · exact .next _ rfl rfl
  | receive =>
    cases hp : pendingFrame s with
    | none =>
      have hp' : pendingFrame { s with obs := o } = none := hp
      simp only [exec, execReceive, hp, hp']
      exact .fault _
    | some x =>
      have hp' : pendingFrame { s with obs := o } = some x := hp
      simp only [exec, execReceive, hp, hp']
      exact .next _ (List.append_assoc ..) (by simp [respond, showCall, setAdapter])
  | send prio rtr ext len id data =>
    obtain ⟨_, herror, _⟩ | ⟨hchecks, hs, hroom, _⟩ | ⟨hchecks, hrefused, _⟩ := execSend_cases prio rtr ext len id data s
    · rw [exec_send_of_error herror, exec_send_of_error (s := { s with obs := o }) herror]
      exact .next _ rfl rfl
    · rw [exec, exec, execSend_of_room hchecks hs hroom, execSend_of_room (s := { s with obs := o }) hchecks hs hroom]
      exact .next _ (List.append_assoc ..) (by simp [respond, showCall, setAdapter, adapterAt])
    · rw [exec, exec, execSend_of_refused hchecks hrefused, execSend_of_refused (s := { s with obs := o }) hchecks hrefused]
      exact .next _ (List.append_assoc ..) (by simp [reject, respond, showCall])
  | reset =>
    have hs : (beginSession s.poll (callEnd s.port s)).obs = _ :=
      (beginSession_obs _ _).trans ((List.append_assoc ..).trans (List.append_assoc ..))
    have hbegin := beginSession_with_obs s.poll (callEnd s.port s) (o ++ [.call s.port .endSession])
    rw [List.append_assoc] at hbegin
    exact .next _ hs hbegin
  | setNumBuffers => exact .next _ rfl rfl
  | setPort n =>
    simp only [exec, execSetPort]
    split <;> exact rebind_sameButHistory s o _ _
  | status => exact .next _ ((List.append_assoc ..).trans (List.append_assoc ..)) (by simp [respond, showCall, snapshot])

/-- Every agent's step, whatever has been shown before. -/
theorem agentStep_sameButHistory (a : AgentStep) (s : State) (o : List Obs) :
    SameButHistory s.obs o (agentStep a s) (agentStep a { s with obs := o }) := by
  cases a with
  | command w =>
    cases hd : decode w with
    | instr i =>
      rw [agentStep_command hd, agentStep_command hd]
      exact exec_sameButHistory i s o
    | reservedOpcode op =>
      rw [agentStep_reserved hd, agentStep_reserved hd]
      exact .next _ rfl rfl
  | busRx p f =>
    have hadapter : adapterAt { s with obs := o } p = adapterAt s p := rfl
    simp only [agentStep, busRx, hadapter]
    split
    · split
      · exact .next [] (List.append_nil _).symm (by simp [setAdapter])
      · exact .fault _
    · exact .next [] (List.append_nil _).symm (by simp)
  | busTx p =>
    have hadapter : adapterAt { s with obs := o } p = adapterAt s p := rfl
    simp only [agentStep, busTx, hadapter]
    split
    · split
      · exact .next _ rfl rfl
      · exact .next [] (List.append_nil _).symm (by simp)
    · exact .next [] (List.append_nil _).symm (by simp)
  | hardwareReset => exact .next [] (List.append_nil _).symm (by simp [hardwareReset])

/-- The machine's step, whatever has been shown before; the idle step shows nothing. -/
theorem step_sameButHistory (s : State) (o : List Obs) : SameButHistory s.obs o (step s) (step { s with obs := o }) := by
  simp only [step, nextStep]
  split
  · exact .next [] (List.append_nil _).symm (by simp)
  · next x rest _ => exact agentStep_sameButHistory x.agent { s with env := x.env, pending := rest } o

theorem SameButHistory.of_next {t : State} {h o : List Obs} {out : Host.Outcome State Fault Refusal}
    (hsame : SameButHistory h o (.next t) out) : ∃ new, t.obs = h ++ new ∧ out = .next { t with obs := o ++ new } := by
  cases hsame with
  | next new ht hu => exact ⟨new, ht, congrArg _ hu⟩

theorem SameButHistory.of_fault {h o : List Obs} {f : Fault} {out : Host.Outcome State Fault Refusal}
    (hsame : SameButHistory h o (.fault f) out) : out = .fault f := by
  cases hsame
  rfl

/-- Settles O5: the step's outcome with the other history, read off case by case. -/
theorem historyIsOutputOnly : Obligations.HistoryIsOutputOnly := fun s o =>
  ⟨fun _ h => (h ▸ step_sameButHistory s o).of_next, fun _ h => (h ▸ step_sameButHistory s o).of_fault⟩

end Sys2Proof.Machine
end

section
/-! PROOFS. What a command's mode, response and counters say of it (41_transport.md section 1, 60_exceptions.md sections 1 and 4,
42_statistics.md), over every way a command can run. -/

namespace Sys2Proof.Machine

open Sys2Proof.Safety

/-! The mode (R120) -/

/-- R120: a begun session is ACTIVE, or a failed begin takes ACTIVE to IDLE. -/
theorem beginSession_mode_eq (pollMode : Bool) (s : State) :
    (beginSession pollMode s).mode =
      if s.env.status[s.port] = 0 then .active else if s.mode = .active then .idle else s.mode := by
  rw [beginSession_mode, modeAfterFailure_eq]

/-- A command that answers alone begins no session and binds no port. -/
theorem answersAlone_inert {i : Instr} (hi : answersAlone i = true) : beginsSession i = false ∧ ∀ n, i ≠ .setPort n := by
  cases i with
  | begin | receive | reset | setNumBuffers | setPort | status => cases hi
  | encode | decode | available | send => simp [beginsSession]

/-- Settles O38: BEGIN and RESET begin a session, SETPORT goes to IDLE, and the others keep the mode. -/
theorem modeTransitionTable : Obligations.ModeTransitionTable := by
  intro i s t h
  cases exec_ran h with
  | begin pollMode =>
    exact (beginSession_mode_eq pollMode s).trans (if_pos rfl).symm
  | reset =>
    exact (beginSession_mode_eq s.poll (callEnd s.port s)).trans (if_pos rfl).symm
  | setPort => simp [beginsSession]
  | answers hi =>
    obtain ⟨hbegin, hport⟩ := answersAlone_inert hi
    simp [hbegin, hport]
  | available | sendRefused | sendAccepted | receives | setNumBuffers | status => simp [beginsSession]

/-! Rejections (R210) -/

/-- The response of a command is the last thing it shows. -/
theorem respond_getLast? (r : Response) (s : State) : (respond r s).obs.getLast? = some (.response r) := by
  simp

/-- R124, R201: beginning a session is answered OK, or INIT_ERROR where the adapter's begin fails. -/
theorem beginSession_response (pollMode : Bool) (s : State) :
    ∃ r, (beginSession pollMode s).obs.getLast? = some (.response r) ∧
      (r.code = .ok ∨ r.code = .initError ∧ s.env.status[s.port] ≠ 0) := by
  obtain ⟨_, e⟩ | ⟨hst, e⟩ := beginSession_cases pollMode s
  · exact ⟨_, by rw [e, respond_getLast?], .inl rfl⟩
  · exact ⟨_, by rw [e, respond_getLast?], .inr ⟨rfl, hst⟩⟩

/-- Settles O42: a rejection is an answer alone, or the refused SEND's, after its one call. -/
theorem rejectedCommandsChangeNothing : Obligations.RejectedCommandsChangeNothing := by
  intro i s t r h hlast hok hinit hwarn
  cases exec_ran h with
  | @answers _ r' _ hr =>
    obtain rfl : r' = r := by simpa using hlast
    obtain hcode | hr := hr
    · exact absurd hcode hok
    · refine ⟨⟨rfl, rfl, rfl, rfl, rfl, rfl, rfl, rfl⟩, ?_, ?_, ?_, fun _ => rfl⟩
      all_goals rw [hr]; rfl
  | sendRefused =>
    obtain rfl : rejectResponse .sendRejected = r := by simpa using hlast
    exact ⟨⟨rfl, rfl, rfl, rfl, rfl, rfl, rfl, rfl⟩, rfl, rfl, rfl, fun hcode => absurd rfl hcode⟩
  | available | sendAccepted | receives | setNumBuffers | status =>
    obtain rfl : okResponse _ _ = r := by simpa using hlast
    exact absurd rfl hok
  | @setPort _ _ r' hr =>
    obtain rfl : r' = r := by simpa using hlast
    obtain rfl | rfl := hr
    · exact absurd rfl hok
    · exact absurd rfl hwarn
  | begin | reset =>
    obtain ⟨r', hlast', hcode⟩ := beginSession_response _ _
    obtain rfl : r' = r := by simpa using hlast'.symm.trans hlast
    obtain hcode | ⟨hcode, _⟩ := hcode
    · exact absurd hcode hok
    · exact absurd hcode hinit

/-! Causes (60_exceptions.md section 1, "Raised by") -/

/-- What a response code of this command in this state says was wrong (R201 to R208). -/
def RaisedBy (i : Instr) (s : State) : Code → Prop
  | .ok => True
  | .initError => beginsSession i = true ∧ s.env.status[s.port] ≠ 0
  | .portWarning => ∃ n, i = .setPort n ∧ (n.toNat = 0 ∨ 3 < n.toNat)
  | .sendRejected => ∃ prio rtr ext len id data, i = .send prio rtr ext len id data ∧ len.toNat ≤ 8 ∧ id.toNat ≤ 127 ∧
      s.mode = .active ∧
      ((adapterAt s s.port).started = false ∨ (adapterAt s s.port).txdepth.toNat ≤ (adapterAt s s.port).txq.length)
  | .malformedLength => ∃ prio rtr ext len id data, i = .send prio rtr ext len id data ∧ 8 < len.toNat
  | .invalidPriority => ∃ p : Prio, (3 < p.major.toNat ∨ 3 < p.minor.toNat) ∧
      ((∃ node, i = .encode (some p) node) ∨ ∃ rtr ext len id data, i = .send (some p) rtr ext len id data)
  | .invalidNodeId => (∃ prio node, i = .encode prio node ∧ 127 < node.toNat) ∨
      ∃ prio rtr ext len id data, i = .send prio rtr ext len id data ∧ 127 < id.toNat
  | .invalidId => ∃ id, i = .decode id ∧ 2047 < id.toNat
  | .notActive => (∃ prio rtr ext len id data, i = .send prio rtr ext len id data) ∧ s.mode ≠ .active
  | .illegalCmd => False

/-- R102: the cause of each error of the header's operands; the default priority has none (R75). -/
theorem headerError_cause {prio : Option Prio} {node : Nat} {code : Code} (h : headerError (priorityPair prio) node = some code) :
    (code = .invalidPriority ∧ ∃ p, prio = some p ∧ (3 < p.major.toNat ∨ 3 < p.minor.toNat)) ∨
      (code = .invalidNodeId ∧ 127 < node) := by
  cases hp : priorityLegal (priorityPair prio) with
  | false =>
    have hillegal := priorityLegal_eq_false.mp hp
    cases (headerError_of_priority hillegal node).symm.trans h
    cases prio with
    | none => exact absurd hp (by decide)
    | some p => exact .inl ⟨rfl, p, rfl, hillegal⟩
  | true =>
    by_cases hnode : node ≤ 127
    · cases (headerError_of_legal hp hnode).symm.trans h
    · cases (headerError_of_node hp (Nat.not_le.mp hnode)).symm.trans h
      exact .inr ⟨rfl, Nat.not_le.mp hnode⟩

/-- R131: the cause of each error SEND finds before it asks the adapter. -/
theorem sendError_raisedBy {prio : Option Prio} {len : BitVec 4} {id : CanId} {s : State} {code : Code}
    (h : sendError prio len id s.mode = some code) (rtr ext : Bool) (data : BitVec 64) :
    RaisedBy (.send prio rtr ext len id data) s code := by
  by_cases hlen : len.toNat ≤ 8
  · cases he : headerError (priorityPair prio) id.toNat with
    | some code' =>
      cases (sendError_of_headerError hlen he s.mode).symm.trans h
      obtain ⟨rfl, p, rfl, hp⟩ | ⟨rfl, hid⟩ := headerError_cause he
      · exact ⟨p, hp, .inr ⟨rtr, ext, len, id, data, rfl⟩⟩
      · exact .inr ⟨prio, rtr, ext, len, id, data, rfl, hid⟩
    | none =>
      by_cases hm : s.mode = .active
      · simp [sendError, sendNode, Nat.not_lt.mpr hlen, he, hm] at h
      · cases (sendError_of_not_active hlen he hm).symm.trans h
        exact ⟨⟨prio, rtr, ext, len, id, data, rfl⟩, hm⟩
  · cases (sendError_of_overlong (Nat.not_le.mp hlen) prio id s.mode).symm.trans h
    exact ⟨prio, rtr, ext, len, id, data, rfl, Nat.not_le.mp hlen⟩

/-- R124, R134: the command that begins the session has the cause of its response. -/
theorem beginSession_raisedBy {i : Instr} {s u : State} (hi : beginsSession i = true)
    (hst : u.env.status[u.port] = s.env.status[s.port]) (pollMode : Bool) :
    ∃ r, (beginSession pollMode u).obs.getLast? = some (.response r) ∧ RaisedBy i s r.code := by
  obtain ⟨r, hlast, hcode | ⟨hcode, hfailed⟩⟩ := beginSession_response pollMode u
  · exact ⟨r, hlast, hcode ▸ trivial⟩
  · exact ⟨r, hlast, hcode ▸ ⟨hi, hst ▸ hfailed⟩⟩

/-- Every command that completes answers a code whose cause is there. -/
theorem exec_raisedBy {i : Instr} {s t : State} (h : exec i s = .next t) :
    ∃ r, t.obs.getLast? = some (.response r) ∧ RaisedBy i s r.code := by
  cases i with
  | encode prio node =>
    simp only [exec, execEncode] at h
    split at h <;> cases h
    · next code he =>
        refine ⟨rejectResponse code, respond_getLast? _ s, ?_⟩
        obtain ⟨rfl, p, rfl, hp⟩ | ⟨rfl, hnode⟩ := headerError_cause he
        · exact ⟨p, hp, .inl ⟨node, rfl⟩⟩
        · exact .inl ⟨prio, node, rfl, hnode⟩
    · exact ⟨_, respond_getLast? _ s, trivial⟩
  | decode id =>
    simp only [exec, execDecode] at h
    split at h <;> cases h
    · exact ⟨_, respond_getLast? _ s, id, rfl, ‹_›⟩
    · exact ⟨_, respond_getLast? _ s, trivial⟩
  | begin pollMode =>
    cases h
    exact beginSession_raisedBy (i := .begin pollMode) rfl rfl _
  | available =>
    simp only [exec, execAvailable] at h
    split at h <;> cases h <;> exact ⟨_, respond_getLast? _ _, trivial⟩
  | receive =>
    simp only [exec, execReceive] at h
    split at h <;> cases h
    exact ⟨_, respond_getLast? _ _, trivial⟩
  | send prio rtr ext len id data =>
    obtain ⟨code, herror, e⟩ | ⟨-, -, -, e⟩ | ⟨hchecks, hrefused, e⟩ := execSend_cases prio rtr ext len id data s
    · cases e.symm.trans h
      exact ⟨_, respond_getLast? _ s, sendError_raisedBy herror rtr ext data⟩
    · cases e.symm.trans h
      exact ⟨_, respond_getLast? _ _, trivial⟩
    · cases e.symm.trans h
      obtain ⟨hlen, -, hid, hm⟩ := sendError_eq_none.mp hchecks
      exact ⟨_, respond_getLast? _ _, prio, rtr, ext, len, id, data, rfl, hlen, hid, hm, hrefused⟩
  | reset =>
    cases h
    exact beginSession_raisedBy (i := .reset) (s := s) (u := callEnd s.port s) rfl rfl _
  | setNumBuffers =>
    cases h
    exact ⟨_, respond_getLast? _ _, trivial⟩
  | setPort n =>
    simp only [exec, execSetPort] at h
    split at h <;> cases h
    · exact ⟨_, respond_getLast? _ _, trivial⟩
    · exact ⟨_, respond_getLast? _ _, n, rfl, portOf_eq_none.mp ‹_›⟩
  | status =>
    cases h
    exact ⟨_, respond_getLast? _ _, trivial⟩

/-- Settles O43: each clause is the cause of its code. -/
theorem errorCodesNameTheirCause : Obligations.ErrorCodesNameTheirCause := by
  intro i s t r h hlast
  obtain ⟨r', hlast', hcause⟩ := exec_raisedBy h
  obtain rfl : r' = r := by simpa using hlast'.symm.trans hlast
  refine ⟨?_, ?_, ?_, ?_, ?_, ?_, ?_, ?_, ?_⟩ <;> intro hcode <;> rw [hcode] at hcause <;> exact hcause

/-! The counters (42_statistics.md R161 to R164) -/

/-- From `s` to `t` the counters went up by the frames shown as accepted and as popped on the port bound in `s`, saturating. -/
def CountsShown (s t : State) : Prop :=
  ∃ new, t.obs = s.obs ++ new ∧
    t.sent.toNat = min (s.sent.toNat + (acceptedOn s.port new).length) (2 ^ 32 - 1) ∧
    t.received.toNat = min (s.received.toNat + (poppedOn s.port new).length) (2 ^ 32 - 1)

/-- Counters that stay, where no frame is shown. -/
theorem CountsShown.of_same {s t : State} {new : List Obs} (hobs : t.obs = s.obs ++ new) (hsent : t.sent = s.sent)
    (hreceived : t.received = s.received) (haccepted : acceptedOn s.port new = []) (hpopped : poppedOn s.port new = []) :
    CountsShown s t := by
  have hs := s.sent.isLt
  have hr := s.received.isLt
  refine ⟨new, hobs, ?_, ?_⟩
  · rw [hsent, haccepted, List.length_nil]
    omega
  · rw [hreceived, hpopped, List.length_nil]
    omega

/-- A command that begins no session does not zero the counters (R164). -/
theorem CountsShown.of_no_begin {i : Instr} {s t : State} (hi : beginsSession i = false) (h : CountsShown s t) :
    (s.env.status[s.port] = 0 ∧ beginsSession i = true ∧ t.sent = 0 ∧ t.received = 0) ∨
      (¬ (s.env.status[s.port] = 0 ∧ beginsSession i = true) ∧ CountsShown s t) :=
  .inr ⟨fun hzero => Bool.false_ne_true (hi.symm.trans hzero.2), h⟩

/-- A begin that fails keeps the counters. -/
theorem CountsShown.of_failedBegin {s u : State} {new : List Obs} {pollMode : Bool} (hst : ¬ u.env.status[u.port] = 0)
    (hobs : (beginSession pollMode u).obs = s.obs ++ new) (hsent : u.sent = s.sent) (hreceived : u.received = s.received)
    (haccepted : acceptedOn s.port new = []) (hpopped : poppedOn s.port new = []) : CountsShown s (beginSession pollMode u) :=
  .of_same hobs (by rw [beginSession_sent, if_neg hst, hsent]) (by rw [beginSession_received, if_neg hst, hreceived]) haccepted
    hpopped

/-- R161 to R164: a command clears both counters, being a BEGIN or RESET whose adapter answers 0, or it counts what it shows. -/
theorem Ran.clears_or_countsShown {i : Instr} {s t : State} (h : Ran s i t) :
    (s.env.status[s.port] = 0 ∧ beginsSession i = true ∧ t.sent = 0 ∧ t.received = 0) ∨
      (¬ (s.env.status[s.port] = 0 ∧ beginsSession i = true) ∧ CountsShown s t) := by
  cases h with
  | begin pollMode =>
    by_cases hst : s.env.status[s.port] = 0
    · exact .inl ⟨hst, rfl, by rw [beginSession_sent, if_pos hst], by rw [beginSession_received, if_pos hst]⟩
    · exact .inr ⟨fun hzero => hst hzero.1,
        .of_failedBegin hst ((beginSession_obs _ _).trans (List.append_assoc ..)) rfl rfl rfl rfl⟩
  | reset =>
    by_cases hst : s.env.status[s.port] = 0
    · exact .inl ⟨hst, rfl, by rw [beginSession_sent]; exact if_pos hst, by rw [beginSession_received]; exact if_pos hst⟩
    · exact .inr ⟨fun hzero => hst hzero.1,
        .of_failedBegin (u := callEnd s.port s) hst
          ((beginSession_obs _ _).trans ((List.append_assoc ..).trans (List.append_assoc ..))) rfl rfl rfl rfl⟩
  | sendAccepted =>
    refine CountsShown.of_no_begin rfl ⟨_, List.append_assoc .., ?_, ?_⟩
    · simp [inc_toNat]
    · simpa using Nat.le_pred_of_lt s.received.isLt
  | receives =>
    refine CountsShown.of_no_begin rfl ⟨_, List.append_assoc .., ?_, ?_⟩
    · simpa using Nat.le_pred_of_lt s.sent.isLt
    · simp [inc_toNat]
  | answers hi =>
    obtain ⟨hbegin, -⟩ := answersAlone_inert hi
    exact CountsShown.of_no_begin hbegin (.of_same rfl rfl rfl rfl rfl)
  | setNumBuffers => exact CountsShown.of_no_begin rfl (.of_same rfl rfl rfl rfl rfl)
  | available => exact CountsShown.of_no_begin rfl (.of_same (List.append_assoc ..) rfl rfl rfl rfl)
  | sendRefused => exact CountsShown.of_no_begin rfl (.of_same (List.append_assoc ..) rfl rfl (by simp) rfl)
  | status => exact CountsShown.of_no_begin rfl (.of_same ((List.append_assoc ..).trans (List.append_assoc ..)) rfl rfl rfl rfl)
  | setPort =>
    refine CountsShown.of_no_begin rfl ?_
    obtain ⟨_, e⟩ | ⟨_, e⟩ := releasePort_cases s
    · rw [e]
      exact .of_same (List.append_assoc ..) rfl rfl rfl rfl
    · rw [e]
      exact .of_same rfl rfl rfl rfl rfl

/-- What zeroes the counters is read off the command (R164). -/
theorem zeroesCounters_command {w : CmdWord} {i : Instr} (hd : decode w = .instr i) (s : State) :
    zeroesCounters (.command w) s = true ↔ s.env.status[s.port] = 0 ∧ beginsSession i = true := by
  simp [zeroesCounters, hd]

/-- Settles O45: a command that runs, and the bus agent and hardware reset, which move no counter or zero both. -/
theorem countersCountEvents : Obligations.CountersCountEvents := by
  intro a s t h
  cases agentStep_stepped h with
  | @command w i _ hd hr =>
    rw [← Bool.not_eq_true, zeroesCounters_command hd]
    obtain ⟨hst, hbegin, hclear⟩ | ⟨hkeep, hcount⟩ := hr.clears_or_countsShown
    · exact ⟨fun _ => hclear, fun hkeep => absurd ⟨hst, hbegin⟩ hkeep⟩
    · exact ⟨fun hzero => absurd hzero hkeep, fun _ => hcount⟩
  | reserved hd =>
    refine ⟨fun hzero => ?_, fun _ => CountsShown.of_same rfl rfl rfl rfl rfl⟩
    simp [zeroesCounters, hd] at hzero
  | busStays ha =>
    have hcount : CountsShown s s := .of_same (List.append_nil _).symm rfl rfl rfl rfl
    obtain ⟨_, _, rfl, _⟩ | ⟨_, rfl, _⟩ := ha <;> exact ⟨fun hzero => absurd hzero Bool.false_ne_true, fun _ => hcount⟩
  | arrives =>
    exact ⟨fun hzero => absurd hzero Bool.false_ne_true, fun _ => CountsShown.of_same (List.append_nil _).symm rfl rfl rfl rfl⟩
  | departs => exact ⟨fun hzero => absurd hzero Bool.false_ne_true, fun _ => CountsShown.of_same rfl rfl rfl rfl rfl⟩
  | resets => exact ⟨fun _ => ⟨rfl, rfl⟩, fun hkeep => absurd hkeep Bool.true_eq_false.mp⟩

end Sys2Proof.Machine
end

section
/-! PROOFS. The bus agent's steps and hardware reset (43_adapter.md R181, R183, 70_reset_and_hazards.md R230), and what RECEIVE
finds after them (20_memory.md sections 1 and 6). -/

namespace Sys2Proof.Machine

open Sys2Proof.Safety Sys2Proof.Laws

/-- R181: an arrival at a started adapter with room is queued. -/
theorem agentStep_busRx_of_room {p : Port} {f : Frame} {s : State} (hs : (adapterAt s p).started = true) (hf : f.wf = true)
    (hroom : (adapterAt s p).rxq.length < (adapterAt s p).rxdepth.toNat) :
    agentStep (.busRx p f) s = .next (setAdapter p { adapterAt s p with rxq := (adapterAt s p).rxq ++ [f] } s) := by
  simp [agentStep, busRx, hs, hf, fifoPush, hroom]

/-- Settles O46: the four cases of an arrival. -/
theorem busArrivalIsQueuedOrLost : Obligations.BusArrivalIsQueuedOrLost := by
  intro p f s
  refine ⟨fun hs hf hroom => agentStep_busRx_of_room hs hf hroom, fun hs hf hfull => ?_, fun hs hf => ?_, fun hs => ?_⟩
  · have hpush : (fifoPush (adapterAt s p).rxq (adapterAt s p).rxdepth f).1 = (adapterAt s p).rxq := by
      simp [fifoPush, Nat.not_lt.mpr hfull]
    rw [agentStep, busRx, if_pos hs, if_pos hf, hpush]
    exact congrArg _ (setAdapter_adapterAt p s)
  · simp [agentStep, busRx, hs, hf]
  · simp [agentStep, busRx, hs]

/-- Settles O47: the two cases of a departure. -/
theorem busDepartureEmitsOldest : Obligations.BusDepartureEmitsOldest := by
  intro p s g q
  refine ⟨fun hs hq => ?_, fun hstays => ?_⟩
  · obtain ⟨hstops | hempty, _⟩ | ⟨g', q', _, hq', e⟩ := busTx_cases p s
    · exact absurd (hstops.symm.trans hs) Bool.false_ne_true
    · exact absurd (hempty.symm.trans hq) (by simp)
    · cases hq.symm.trans hq'
      exact e
  · obtain ⟨_, e⟩ | ⟨g', q', hs, hq', _⟩ := busTx_cases p s
    · exact e
    · obtain hstops | hempty := hstays
      · exact absurd (hstops.symm.trans hs) Bool.false_ne_true
      · exact absurd (hempty.symm.trans hq') (by simp)

/-- Settles O50: hardware reset's values written out. -/
theorem hardwareResetValues : Obligations.HardwareResetValues := fun _ => rfl

/-- Settles O49: the frame that arrived is the oldest, and the response packs it whole. -/
theorem arrivalIsReturnedByReceive : Obligations.ArrivalIsReturnedByReceive := by
  intro f s hm hs hempty hdepth hf hcount
  have hroom : (adapterAt s s.port).rxq.length < (adapterAt s s.port).rxdepth.toNat := by rwa [hempty]
  have hadapter := adapterAt_setAdapter_self s.port { adapterAt s s.port with rxq := (adapterAt s s.port).rxq ++ [f] } s
  refine ⟨_, _, packFrame f, agentStep_busRx_of_room hs hf hroom,
    exec_receive_of_pending (f := f) (q := []) hm (by rw [setAdapter_port, hadapter, hs])
      (by rw [setAdapter_port, hadapter, hempty]; rfl),
    respond_getLast? _ _, unpackFrame_packFrame hf, ?_, ?_⟩
  · change (inc s.received).toNat = _
    rw [inc_toNat]
    omega
  · change (adapterAt (setAdapter s.port _ _) s.port).rxq = []
    rw [adapterAt_setAdapter_self]

/-! The guard (R59 (c), R234) -/

/-- The block is ACTIVE and `f` is the frame RECEIVE would return. -/
def OldestPending (f : Frame) (s : State) : Prop :=
  s.mode = .active ∧ (adapterAt s s.port).started = true ∧ ∃ q, (adapterAt s s.port).rxq = f :: q

/-- Writing an adapter keeps the oldest frame, if the bound one is still started with that frame first. -/
theorem OldestPending.setAdapter {f : Frame} {s : State} {p : Port} {a : Adapter} (hf : OldestPending f s)
    (ha : p = s.port → a.started = true ∧ ∃ q, a.rxq = f :: q) : OldestPending f (setAdapter p a s) := by
  obtain ⟨hm, hs⟩ := hf
  refine ⟨hm, ?_⟩
  rw [setAdapter_port, adapterAt_setAdapter]
  split
  · exact ha ‹_›
  · exact hs

/-- A command that leaves the receive FIFOs and the session alone keeps the oldest frame. -/
theorem Ran.oldestPending {i : Instr} {s t : State} {f : Frame} (h : Ran s i t) (hi : keepsReceived i = true)
    (hf : OldestPending f s) : OldestPending f t := by
  cases h with
  | answers | available | sendRefused | setNumBuffers | status => exact hf
  | sendAccepted =>
    have ⟨_, hs, hq⟩ := hf
    exact OldestPending.setAdapter hf fun _ => ⟨hs, hq⟩
  | receives | setPort | begin | reset => cases hi

/-- A harmless step keeps the oldest frame: an arrival joins behind it (R59 (c)). -/
theorem Stepped.oldestPending {a : AgentStep} {s t : State} {f : Frame} (h : Stepped s a t) (ha : harmless a = true)
    (hf : OldestPending f s) : OldestPending f t := by
  cases h with
  | command hd hr => exact hr.oldestPending (by simpa [harmless, hd] using ha) hf
  | reserved | busStays => exact hf
  | @arrives _ g =>
    have ⟨_, hs, q, hq⟩ := hf
    refine OldestPending.setAdapter hf fun hp => ?_
    rw [hp]
    exact ⟨hs, q ++ [g], by rw [hq, List.cons_append]⟩
  | departs =>
    have ⟨_, hs, hq⟩ := hf
    exact OldestPending.setAdapter hf fun hp => hp ▸ ⟨hs, hq⟩
  | resets => cases ha

/-- A harmless step goes on. -/
theorem agentStep_of_harmless {a : AgentStep} (ha : harmless a = true) (s : State) : ∃ t, agentStep a s = .next t := by
  cases a with
  | command w =>
    cases hd : decode w with
    | instr i =>
      rw [agentStep_command hd]
      obtain h | ⟨rfl, -, -⟩ := exec_completes_or_undefined i s
      · exact h
      · simp [harmless, hd, keepsReceived] at ha
    | reservedOpcode op => exact ⟨_, agentStep_reserved hd s⟩
  | busRx p f =>
    obtain ⟨_, e⟩ | ⟨_, hf, _⟩ | ⟨_, _, _, e⟩ | ⟨_, _, _, e⟩ := busRx_cases p f s
    · exact ⟨_, e⟩
    · exact absurd (hf.symm.trans ha) Bool.false_ne_true
    · exact ⟨_, e⟩
    · exact ⟨_, e⟩
  | busTx p => obtain ⟨_, e⟩ | ⟨_, _, _, _, e⟩ := busTx_cases p s <;> exact ⟨_, e⟩
  | hardwareReset => cases ha

/-- A stretch of harmless steps completes and keeps the oldest frame. -/
theorem runSteps_of_harmless {before rest : List Presented} {s : State} {f : Frame} (hp : s.pending = before ++ rest)
    (hbefore : ∀ x ∈ before, harmless x.agent = true) (hf : OldestPending f s) :
    ∃ u, runSteps before.length s = .next u ∧ OldestPending f u ∧ u.pending = rest := by
  induction before generalizing s with
  | nil => exact ⟨s, rfl, hf, hp⟩
  | cons x before ih =>
    have hx := hbefore x (List.mem_cons_self ..)
    obtain ⟨t, ht⟩ := agentStep_of_harmless hx { s with env := x.env, pending := before ++ rest }
    have hstepped := agentStep_stepped ht
    have hstep : step s = .next t := (step_cons hp).trans ht
    obtain ⟨u, hrun, hu⟩ := ih hstepped.pending_eq (fun y hy => hbefore y (List.mem_cons_of_mem x hy))
      (hstepped.oldestPending hx hf)
    exact ⟨u, (runSteps_next hstep _).trans hrun, hu⟩

/-- Settles O55: the RECEIVE finds the frame that was oldest at the guard. -/
theorem guardedReceiveCompletes : Obligations.GuardedReceiveCompletes := by
  intro before rest e w s f q hguard hq hp hbefore hd
  obtain ⟨hm, havailable⟩ := hguard
  obtain ⟨hs, -⟩ := adapterAvailable_iff.mp havailable
  obtain ⟨u, hrun, ⟨hm', hs', q', hq'⟩, hpending⟩ := runSteps_of_harmless hp hbefore ⟨hm, hs, q, hq⟩
  have hreceive := exec_receive_of_pending (s := { u with env := e, pending := rest }) hm' hs' hq'
  exact ⟨u, _, hrun, ((step_cons hpending).trans (agentStep_command hd _)).trans hreceive, respond_getLast? _ _⟩

end Sys2Proof.Machine
end

section
/-! PROOFS. The signal-level carrier (30_encoding.md R89, 60_exceptions.md R213): the step taken in a cycle is one on offer, and a
command's response is the last thing its step shows. -/

namespace Sys2Proof.Machine

open Sys2Proof.Safety

/-! Ports on offer -/

/-- R213: a port is chosen only if it has the property. -/
theorem lowestPort_eq_some {has : Port → Bool} {p : Port} (h : lowestPort has = some p) : has p = true :=
  List.find?_some h

/-- R213: a port is chosen if one has the property. -/
theorem lowestPort_ne_none {has : Port → Bool} {p : Port} (h : has p = true) : lowestPort has ≠ none := fun hnone =>
  absurd h (List.find?_eq_none.mp hnone p (List.mem_finRange p))

/-- R89: a departure is valid exactly at a started adapter with a frame to send. -/
theorem bustxValidAt_iff {s : State} {p : Port} :
    bustxValidAt s p = true ↔ (adapterAt s p).started = true ∧ (adapterAt s p).txq ≠ [] := by
  simp [bustxValidAt]

/-! The step selected (R213) -/

/-- A cycle with a reset takes it. -/
theorem selectStep_of_rst {c : CycleIn} (h : c.rst = true) (s : State) : selectStep c s = some .hardwareReset := if_pos h

/-- A cycle with a command and no reset takes the command. -/
theorem selectStep_of_cmdValid {c : CycleIn} (hrst : c.rst = false) (h : c.cmdValid = true) (s : State) :
    selectStep c s = some (.command c.cmd) := by
  simp [selectStep, hrst, h]

/-- A cycle with neither takes an arrival. -/
theorem selectStep_of_arrival {c : CycleIn} {s : State} {p : Port} (hrst : c.rst = false) (hcmd : c.cmdValid = false)
    (h : arrivalPort c s = some p) : selectStep c s = some (.busRx p (unpackBus c.busrxFrame[p])) := by
  simp [selectStep, hrst, hcmd, h]

/-- A cycle with none of these takes a departure, if there is one. -/
theorem selectStep_of_no_arrival {c : CycleIn} {s : State} (hrst : c.rst = false) (hcmd : c.cmdValid = false)
    (h : arrivalPort c s = none) : selectStep c s = (departurePort c s).map .busTx := by
  simp [selectStep, hrst, hcmd, h]

/-- R213: the step selected is on offer in the cycle. -/
inductive OnOffer (c : CycleIn) (s : State) : AgentStep → Prop where
  | reset (h : c.rst = true) : OnOffer c s .hardwareReset
  | command (h : c.cmdValid = true) : OnOffer c s (.command c.cmd)
  | arrival {p : Port} (h : c.busrxValid[p] = true) (hs : (adapterAt s p).started = true) :
      OnOffer c s (.busRx p (unpackBus c.busrxFrame[p]))
  | departure {p : Port} (hs : (adapterAt s p).started = true) (hq : (adapterAt s p).txq ≠ []) (h : c.bustxReady[p] = true) :
      OnOffer c s (.busTx p)

/-- A cycle selects only what is on offer. -/
theorem onOffer_of_selectStep {c : CycleIn} {s : State} {a : AgentStep} (h : selectStep c s = some a) : OnOffer c s a := by
  cases hrst : c.rst with
  | true =>
    cases (selectStep_of_rst hrst s).symm.trans h
    exact .reset hrst
  | false =>
    cases hcmd : c.cmdValid with
    | true =>
      cases (selectStep_of_cmdValid hrst hcmd s).symm.trans h
      exact .command hcmd
    | false =>
      cases ha : arrivalPort c s with
      | some p =>
        cases (selectStep_of_arrival hrst hcmd ha).symm.trans h
        obtain ⟨hvalid, hs⟩ := Bool.and_eq_true_iff.mp (lowestPort_eq_some ha)
        exact .arrival hvalid hs
      | none =>
        rw [selectStep_of_no_arrival hrst hcmd ha, Option.map_eq_some_iff] at h
        obtain ⟨p, hp, rfl⟩ := h
        obtain ⟨hvalid, hready⟩ := Bool.and_eq_true_iff.mp (lowestPort_eq_some hp)
        obtain ⟨hs, hq⟩ := bustxValidAt_iff.mp hvalid
        exact .departure hs hq hready

/-- A cycle with a step on offer selects one. -/
theorem selectStep_ne_none {c : CycleIn} {s : State} {a : AgentStep} (h : OnOffer c s a) : selectStep c s ≠ none := by
  intro hnone
  cases hrst : c.rst with
  | true => cases (selectStep_of_rst hrst s).symm.trans hnone
  | false =>
    cases hcmd : c.cmdValid with
    | true => cases (selectStep_of_cmdValid hrst hcmd s).symm.trans hnone
    | false =>
      cases ha : arrivalPort c s with
      | some p => cases (selectStep_of_arrival hrst hcmd ha).symm.trans hnone
      | none =>
        rw [selectStep_of_no_arrival hrst hcmd ha, Option.map_eq_none_iff] at hnone
        cases h with
        | reset h => exact Bool.false_ne_true (hrst.symm.trans h)
        | command h => exact Bool.false_ne_true (hcmd.symm.trans h)
        | arrival h hs => exact lowestPort_ne_none (Bool.and_eq_true_iff.mpr ⟨h, hs⟩) ha
        | departure hs hq h =>
          exact lowestPort_ne_none (Bool.and_eq_true_iff.mpr ⟨bustxValidAt_iff.mpr ⟨hs, hq⟩, h⟩) hnone

/-- A cycle takes the step it selects, with the cycle's inputs. -/
theorem cycle_of_selectStep {c : CycleIn} {s : State} {a : AgentStep} (h : selectStep c s = some a) :
    cycle c s = agentStep a { s with env := c.env } := by
  simp only [cycle, h]

/-- Settles O56: the step selected is the machine's when it alone is to come, it is on offer, and one on offer is selected. -/
theorem cycleIsOneStep : Obligations.CycleIsOneStep := by
  intro c s hp
  refine ⟨fun a h => ?_, fun h => ?_, fun h => ?_, fun w h => ?_, fun p f h => ?_, fun p h => ?_, fun h => ?_⟩
  · rw [cycle_of_selectStep h, step_cons rfl, hp]
  · simp only [cycle, h]
  · cases onOffer_of_selectStep h with
    | reset hrst => exact hrst
  · cases onOffer_of_selectStep h with
    | command hcmd => exact ⟨hcmd, rfl⟩
  · cases onOffer_of_selectStep h with
    | arrival hvalid hs => exact ⟨hvalid, hs, rfl⟩
  · cases onOffer_of_selectStep h with
    | departure hs hq hready => exact ⟨hs, hq, hready⟩
  · obtain h | h | ⟨p, h, hs⟩ | ⟨p, hs, hq, h⟩ := h
    · exact selectStep_ne_none (.reset h)
    · exact selectStep_ne_none (.command h)
    · exact selectStep_ne_none (.arrival h hs)
    · exact selectStep_ne_none (.departure hs hq h)

/-! The response (R89) -/

/-- The response of a step that ends with one. -/
theorem lastResponse_eq_some {t : State} {r : Response} (h : t.obs.getLast? = some (.response r)) :
    lastResponse (.next t) = some r := by
  simp only [lastResponse, h]

/-- R89: in a cycle with a command and no reset the response is the last one its step shows. -/
theorem cycleResponse_of_command {c : CycleIn} (hrst : c.rst = false) (hcmd : c.cmdValid = true) {s t : State} {r : Response}
    (h : agentStep (.command c.cmd) { s with env := c.env } = .next t) (hr : t.obs.getLast? = some (.response r)) :
    cycleResponse c s = some r := by
  rw [cycleResponse, cycle_of_selectStep (selectStep_of_cmdValid hrst hcmd s), h, lastResponse_eq_some hr, hrst, hcmd]
  rfl

/-- R89: the response's word and its `diag` are the outputs. -/
theorem cycleOut_of_response {c : CycleIn} {s : State} {r : Response} (h : cycleResponse c s = some r) :
    (cycleOut c s).rsp = some (rspWord r) ∧ (cycleOut c s).diagPulse = r.diag := by
  simp [cycleOut, h]

/-- Settles O57: every command that completes ends with a response, and so does a reserved opcode. -/
theorem commandCycleCarriesResponse : Obligations.CommandCycleCarriesResponse := by
  refine fun c s => ⟨rfl, fun hrst hcmd => ⟨fun i t hd h => ?_, fun op hd => ?_⟩⟩
  · obtain ⟨r, hr, -⟩ := exec_raisedBy h
    exact ⟨r, hr, cycleOut_of_response (cycleResponse_of_command hrst hcmd ((agentStep_command hd _).trans h) hr)⟩
  · exact cycleOut_of_response (cycleResponse_of_command hrst hcmd (agentStep_reserved hd _) (respond_getLast? _ _))

end Sys2Proof.Machine
end
